-- ==== Sys2Proof/Word.lean ====
section
/-! DEFINITION. The two word types of the core (00_scope.md R2): 8-bit cells, registers, opcodes and immediates;
16-bit addresses, register pairs, SP and PC. Arithmetic on them is reduced mod 2^8 or 2^16 (R13), which is what
`BitVec` addition and subtraction do; exact sums (for the flags) are taken on `toNat`. -/

namespace Sys2Proof

/-- An 8-bit value (R2, R12). -/
abbrev Byte := BitVec 8

/-- A 16-bit value (R2, R12). -/
abbrev Word := BitVec 16

end Sys2Proof
end

