-- ==== Sys2Proof/Machine/Bits.lean ====
section
/-! DEFINITION. The bit-field, byte-order and sign-extension helpers of 00_scope.md R14 to R16. -/

namespace Sys2Proof.Machine

/-- `hi8(w)` = w[15:8] (R15). -/
def hi8 (w : Word) : Byte := w.extractLsb' 8 8

/-- `lo8(w)` = w[7:0] (R15). -/
def lo8 (w : Word) : Byte := w.extractLsb' 0 8

/-- `hi ++ lo` = hi * 256 + lo (R15). -/
def join (hi lo : Byte) : Word := BitVec.ofNat 16 (hi.toNat * 256 + lo.toNat)

/-- `sext_16(v)`, reduced to 16 bits (R14): v when v[7] = 0 and v - 256 when v[7] = 1. A sum with it is
`wrap16(x + sext_16(e))`. -/
def sext16 (v : Byte) : Word := v.signExtend 16

/-- `zext_16(v)` (R14): v as a 16-bit value. -/
def zext16 (v : Byte) : Word := v.zeroExtend 16

/-- `b2n(b)` (R16): 1 when b is true and 0 when it is false. -/
def b2n (b : Bool) : Nat := if b then 1 else 0

/-- `b2n(b)` as an 8-bit value. -/
def b2b (b : Bool) : Byte := if b then 1 else 0

/-- A high-page address 0xFF00 + n (R70). -/
def highPage (n : Byte) : Word := 0xFF00 + zext16 n

end Sys2Proof.Machine
end

