-- ==== Sys2Proof/Config.lean ====
section
/-! DEFINITION. The implementation parameters of 00_scope.md section 4 (R3 to R10), each with the values the spec allows,
and the one free value: the entries of the cycle table that the source leaves open (R7, U7).

`Config` is plain data. It is held in `Machine.State` so that one `step` covers every value of every parameter; no step
writes it (assumption log 1). -/

namespace Sys2Proof

/-- P_MEM_SIZE (R3, D1): `full` is 0x10000 cells (the default), `short` is 0xFFFF cells (the source's observed size). -/
inductive MemSize where
  | full
  | short
  deriving DecidableEq, Repr

/-- P_RESET_RUN (R4, D2): the run state after reset. -/
inductive ResetRun where
  | running
  | haltedStopped
  deriving DecidableEq, Repr

/-- P_RESET_REGS (R5, D3): the reset content of A to L and the flags. Under `undefined` each holds no value until it is
first written, and reading it before then raises FATAL_UNDEF (R170). -/
inductive ResetRegs where
  | zero
  | undefined
  deriving DecidableEq, Repr

/-- P_PREFIXED_TABLE (R6, D16): the decoder table of the 0xCB space. Under `stub` every code is a decode failure. -/
inductive PrefixTable where
  | stub
  | full
  deriving DecidableEq, Repr

/-- P_CYCLE_TABLE (R7, D17): `free` is any table whatever with the one entry the source fixes, (0x00, false) = 4;
`reference` is the table of 70_reset_and_hazards.md R186. -/
inductive CycleTable where
  | free
  | reference
  deriving DecidableEq, Repr

/-- P_HALT_STEP_CYCLES (R8, D19): what a step returns while the core is halted or stopped. -/
inductive HaltCycles where
  | table
  | zero
  deriving DecidableEq, Repr

/-- P_STOP_LEN (R9, D15): the length of STOP in bytes. -/
inductive StopLen where
  | one
  | two
  deriving DecidableEq, Repr

/-- The parameters that the machine's behaviour or reset depends on (00_scope.md section 4). -/
structure Config where
  memSize : MemSize
  resetRun : ResetRun
  resetRegs : ResetRegs
  prefixTable : PrefixTable
  cycles : CycleTable
  haltCycles : HaltCycles
  stopLen : StopLen
  deriving DecidableEq, Repr

/-- FREE VALUE (R7, U7, U12): the entries of P_CYCLE_TABLE that the source does not give, by opcode byte and prefixed
flag. It has no body, so no proof can know an entry of it (assumption log 2). -/
opaque Config.freeCycles : Byte → Bool → Byte

/-- P_CLOCK_HZ and P_FRAME_US (R10, D20): positive integers, left open; the frame driver takes them as an argument. -/
structure FrameConfig where
  clockHz : Nat
  frameUs : Nat
  deriving DecidableEq, Repr

end Sys2Proof
end

