-- ==== Sys2Proof/Machine/Memory.lean ====
section
/-! DEFINITION. The backing store (10_state.md R31, 20_memory.md R41, R42): 8-bit cells by address, held as the list of the
cells that do not hold the reset content 0x00 (R40), in one canonical form, so that equal memories are equal lists. -/

namespace Sys2Proof.Machine

/-- The cells that are not 0x00, addresses strictly rising. -/
abbrev Memory := List Host.Cell

/-- What a cell that is not listed holds: "After reset, every memory cell holds 0x00" (R40). -/
def Memory.unlisted : Byte := 0x00

/-- The byte a cell holds (R41). -/
def Memory.read : Memory → Nat → Byte
  | [], _ => Memory.unlisted
  | (b, w) :: rest, a => if a = b then w else Memory.read rest a

/-- `cell` before the cells of `m`, unless it holds what an unlisted cell holds. -/
def Memory.cons (a : Nat) (v : Byte) (m : Memory) : Memory :=
  if v = Memory.unlisted then m else (a, v) :: m

/-- Set one cell (R42). Writing 0x00 removes the entry, so the form stays canonical. -/
def Memory.write : Memory → Nat → Byte → Memory
  | [], a, v => Memory.cons a v []
  | (b, w) :: rest, a, v =>
    if a < b then Memory.cons a v ((b, w) :: rest)
    else if a = b then Memory.cons a v rest
    else (b, w) :: Memory.write rest a v

/-- Every address is at least `lo`, addresses rise strictly, and no entry holds 0x00. -/
def Memory.wfFrom : Nat → Memory → Bool
  | _, [] => true
  | lo, (a, v) :: rest => decide (lo ≤ a) && v != Memory.unlisted && Memory.wfFrom (a + 1) rest

/-- The canonical form. -/
def Memory.wf (m : Memory) : Bool := Memory.wfFrom 0 m

/-- Every listed address is below `size` (R31: the store has P_MEM_SIZE cells). -/
def Memory.below (size : Nat) : Memory → Bool
  | [] => true
  | (a, _) :: rest => decide (a < size) && Memory.below size rest

end Sys2Proof.Machine
end

