-- ==== Sys2Proof/Syntax/Operand.lean ====
section
/-! DEFINITION. The operand selectors and the decoded instruction value of 30_encoding.md R72, constructor for constructor.
`Op` is the type R72 calls Instr: it carries selectors only, never an immediate value. The package's `Instr`
(Sys2Proof/Syntax.lean) is the type of the ROWS of opcode_table.json; `Instr.op` gives a row's decoded value. -/

namespace Sys2Proof

/-- The seven 8-bit general registers (R18, R72). -/
inductive Reg8 where
  | a | b | c | d | e | h | l
  deriving DecidableEq, Repr

/-- The pairs of the rp table (R64, R72). -/
inductive Reg16 where
  | bc | de | hl | sp
  deriving DecidableEq, Repr

/-- The pairs of the rp2 table, used by PUSH and POP (R64, R72). -/
inductive StkReg where
  | bc | de | hl | af
  deriving DecidableEq, Repr

/-- Byte operand selectors (R72): register; (BC), (DE), (HL), (HL+), (HL-); n at pc+1; (nn); (0xFF00+n); (0xFF00+C). -/
inductive Loc8 where
  | reg (r : Reg8)
  | indBC | indDE | indHL
  | indHLInc | indHLDec
  | imm8
  | abs16
  | highImm
  | highC
  deriving DecidableEq, Repr

/-- Word-sized load forms (R72): LD rr,nn; LD (nn),SP; LD SP,HL; LD HL,SP+e. -/
inductive WordLoad where
  | imm (r : Reg16)
  | nnSP
  | spHL
  | hlSPe
  deriving DecidableEq, Repr

/-- The eight two-operand ALU operations (R65, R72). -/
inductive AluOp where
  | add | adc | sub | sbc | and | xor | or | cp
  deriving DecidableEq, Repr

/-- The conditions (R72, R139). `alwaysIe` also sets ime when it is evaluated. -/
inductive Cond where
  | nz | z | nc | c | always | alwaysIe
  deriving DecidableEq, Repr

/-- The forms of JP (R72): absolute, through HL, relative (JR). -/
inductive JpForm where
  | imm16 | hl | rel8
  deriving DecidableEq, Repr

/-- The operations of the prefixed space (R72, R154). -/
inductive CbOp where
  | rlc | rrc | rl | rr | sla | sra | swap | srl
  | bit (b : Fin 8)
  | res (b : Fin 8)
  | set (b : Fin 8)
  deriving DecidableEq, Repr

/-- The decoded instruction value (R72). JR is `jp c .rel8`; RETI is `ret .alwaysIe` (D30). -/
inductive Op where
  | ld8 (dst src : Loc8)
  | ld16 (w : WordLoad)
  | push (r : StkReg)
  | pop (r : StkReg)
  | alu (op : AluOp) (src : Loc8)
  | inc8 (t : Loc8)
  | dec8 (t : Loc8)
  | daa | cpl | scf | ccf
  | rlca | rrca | rla | rra
  | inc16 (r : Reg16)
  | dec16 (r : Reg16)
  | add16 (r : Reg16)
  | addSp
  | jp (cc : Cond) (f : JpForm)
  | call (cc : Cond)
  | ret (cc : Cond)
  | rst (target : Word)
  | nop | halt | stop | di | ei
  | cb (op : CbOp) (t : Loc8)
  deriving DecidableEq, Repr

end Sys2Proof
end

