-- ==== Sys2Proof/Syntax.lean ====
section
/-! DEFINITION. The instructions: one constructor per row of spec/opcode_table.json (30_encoding.md R75, R154), the eleven
"(illegal)" rows under one constructor that carries the byte. The non-prefixed rows are whole opcodes and have no operand
of their own; their immediates are read from memory when they execute (R72). The prefixed rows carry the operand `t` of
code[2:0] and, for BIT, RES and SET, the bit index of code[5:3]. The rows with an operand stand first (Lean's compiler
limits the number of a constructor that has one); the others follow in the table's order. -/

namespace Sys2Proof

/-- The rows of the opcode table. -/
inductive Instr where
  /-- (illegal): one of the eleven bytes with no instruction (R76) -/
  | illegal (code : Byte)
  /-- 0xCB 0x00/0xF8: RLC r (R155) -/
  | rlc (t : Loc8)
  /-- 0xCB 0x08/0xF8: RRC r (R156) -/
  | rrc (t : Loc8)
  /-- 0xCB 0x10/0xF8: RL r (R157) -/
  | rl (t : Loc8)
  /-- 0xCB 0x18/0xF8: RR r (R158) -/
  | rr (t : Loc8)
  /-- 0xCB 0x20/0xF8: SLA r (R159) -/
  | sla (t : Loc8)
  /-- 0xCB 0x28/0xF8: SRA r (R160) -/
  | sra (t : Loc8)
  /-- 0xCB 0x30/0xF8: SWAP r (R161) -/
  | swap (t : Loc8)
  /-- 0xCB 0x38/0xF8: SRL r (R162) -/
  | srl (t : Loc8)
  /-- 0xCB 0x40/0xC0: BIT b,r (R163) -/
  | bit (b : Fin 8) (t : Loc8)
  /-- 0xCB 0x80/0xC0: RES b,r (R164) -/
  | res (b : Fin 8) (t : Loc8)
  /-- 0xCB 0xC0/0xC0: SET b,r (R165) -/
  | set (b : Fin 8) (t : Loc8)
  /-- 0x00: NOP (R148) -/
  | nop
  /-- 0x01: LD BC,nn (R108) -/
  | ld_BC_nn
  /-- 0x02: LD (BC),A (R96) -/
  | ld_atBC_A
  /-- 0x03: INC BC (R135) -/
  | inc_BC
  /-- 0x04: INC B (R125) -/
  | inc_B
  /-- 0x05: DEC B (R126) -/
  | dec_B
  /-- 0x06: LD B,n (R90) -/
  | ld_B_n
  /-- 0x07: RLCA (R131) -/
  | rlca
  /-- 0x08: LD (nn),SP (R109) -/
  | ld_atNN_SP
  /-- 0x09: ADD HL,BC (R137) -/
  | add_HL_BC
  /-- 0x0A: LD A,(BC) (R94) -/
  | ld_A_atBC
  /-- 0x0B: DEC BC (R136) -/
  | dec_BC
  /-- 0x0C: INC C (R125) -/
  | inc_C
  /-- 0x0D: DEC C (R126) -/
  | dec_C
  /-- 0x0E: LD C,n (R90) -/
  | ld_C_n
  /-- 0x0F: RRCA (R132) -/
  | rrca
  /-- 0x10: STOP (R150) -/
  | stop
  /-- 0x11: LD DE,nn (R108) -/
  | ld_DE_nn
  /-- 0x12: LD (DE),A (R97) -/
  | ld_atDE_A
  /-- 0x13: INC DE (R135) -/
  | inc_DE
  /-- 0x14: INC D (R125) -/
  | inc_D
  /-- 0x15: DEC D (R126) -/
  | dec_D
  /-- 0x16: LD D,n (R90) -/
  | ld_D_n
  /-- 0x17: RLA (R133) -/
  | rla
  /-- 0x18: JR e (R143) -/
  | jr_e
  /-- 0x19: ADD HL,DE (R137) -/
  | add_HL_DE
  /-- 0x1A: LD A,(DE) (R95) -/
  | ld_A_atDE
  /-- 0x1B: DEC DE (R136) -/
  | dec_DE
  /-- 0x1C: INC E (R125) -/
  | inc_E
  /-- 0x1D: DEC E (R126) -/
  | dec_E
  /-- 0x1E: LD E,n (R90) -/
  | ld_E_n
  /-- 0x1F: RRA (R134) -/
  | rra
  /-- 0x20: JR NZ,e (R143) -/
  | jr_NZ_e
  /-- 0x21: LD HL,nn (R108) -/
  | ld_HL_nn
  /-- 0x22: LD (HL+),A (R100) -/
  | ld_atHLi_A
  /-- 0x23: INC HL (R135) -/
  | inc_HL
  /-- 0x24: INC H (R125) -/
  | inc_H
  /-- 0x25: DEC H (R126) -/
  | dec_H
  /-- 0x26: LD H,n (R90) -/
  | ld_H_n
  /-- 0x27: DAA (R127) -/
  | daa
  /-- 0x28: JR Z,e (R143) -/
  | jr_Z_e
  /-- 0x29: ADD HL,HL (R137) -/
  | add_HL_HL
  /-- 0x2A: LD A,(HL+) (R98) -/
  | ld_A_atHLi
  /-- 0x2B: DEC HL (R136) -/
  | dec_HL
  /-- 0x2C: INC L (R125) -/
  | inc_L
  /-- 0x2D: DEC L (R126) -/
  | dec_L
  /-- 0x2E: LD L,n (R90) -/
  | ld_L_n
  /-- 0x2F: CPL (R128) -/
  | cpl
  /-- 0x30: JR NC,e (R143) -/
  | jr_NC_e
  /-- 0x31: LD SP,nn (R108) -/
  | ld_SP_nn
  /-- 0x32: LD (HL-),A (R101) -/
  | ld_atHLd_A
  /-- 0x33: INC SP (R135) -/
  | inc_SP
  /-- 0x34: INC (HL) (R125) -/
  | inc_atHL
  /-- 0x35: DEC (HL) (R126) -/
  | dec_atHL
  /-- 0x36: LD (HL),n (R93) -/
  | ld_atHL_n
  /-- 0x37: SCF (R129) -/
  | scf
  /-- 0x38: JR C,e (R143) -/
  | jr_C_e
  /-- 0x39: ADD HL,SP (R137) -/
  | add_HL_SP
  /-- 0x3A: LD A,(HL-) (R99) -/
  | ld_A_atHLd
  /-- 0x3B: DEC SP (R136) -/
  | dec_SP
  /-- 0x3C: INC A (R125) -/
  | inc_A
  /-- 0x3D: DEC A (R126) -/
  | dec_A
  /-- 0x3E: LD A,n (R90) -/
  | ld_A_n
  /-- 0x3F: CCF (R130) -/
  | ccf
  /-- 0x40: LD B,B (R89) -/
  | ld_B_B
  /-- 0x41: LD B,C (R89) -/
  | ld_B_C
  /-- 0x42: LD B,D (R89) -/
  | ld_B_D
  /-- 0x43: LD B,E (R89) -/
  | ld_B_E
  /-- 0x44: LD B,H (R89) -/
  | ld_B_H
  /-- 0x45: LD B,L (R89) -/
  | ld_B_L
  /-- 0x46: LD B,(HL) (R91) -/
  | ld_B_atHL
  /-- 0x47: LD B,A (R89) -/
  | ld_B_A
  /-- 0x48: LD C,B (R89) -/
  | ld_C_B
  /-- 0x49: LD C,C (R89) -/
  | ld_C_C
  /-- 0x4A: LD C,D (R89) -/
  | ld_C_D
  /-- 0x4B: LD C,E (R89) -/
  | ld_C_E
  /-- 0x4C: LD C,H (R89) -/
  | ld_C_H
  /-- 0x4D: LD C,L (R89) -/
  | ld_C_L
  /-- 0x4E: LD C,(HL) (R91) -/
  | ld_C_atHL
  /-- 0x4F: LD C,A (R89) -/
  | ld_C_A
  /-- 0x50: LD D,B (R89) -/
  | ld_D_B
  /-- 0x51: LD D,C (R89) -/
  | ld_D_C
  /-- 0x52: LD D,D (R89) -/
  | ld_D_D
  /-- 0x53: LD D,E (R89) -/
  | ld_D_E
  /-- 0x54: LD D,H (R89) -/
  | ld_D_H
  /-- 0x55: LD D,L (R89) -/
  | ld_D_L
  /-- 0x56: LD D,(HL) (R91) -/
  | ld_D_atHL
  /-- 0x57: LD D,A (R89) -/
  | ld_D_A
  /-- 0x58: LD E,B (R89) -/
  | ld_E_B
  /-- 0x59: LD E,C (R89) -/
  | ld_E_C
  /-- 0x5A: LD E,D (R89) -/
  | ld_E_D
  /-- 0x5B: LD E,E (R89) -/
  | ld_E_E
  /-- 0x5C: LD E,H (R89) -/
  | ld_E_H
  /-- 0x5D: LD E,L (R89) -/
  | ld_E_L
  /-- 0x5E: LD E,(HL) (R91) -/
  | ld_E_atHL
  /-- 0x5F: LD E,A (R89) -/
  | ld_E_A
  /-- 0x60: LD H,B (R89) -/
  | ld_H_B
  /-- 0x61: LD H,C (R89) -/
  | ld_H_C
  /-- 0x62: LD H,D (R89) -/
  | ld_H_D
  /-- 0x63: LD H,E (R89) -/
  | ld_H_E
  /-- 0x64: LD H,H (R89) -/
  | ld_H_H
  /-- 0x65: LD H,L (R89) -/
  | ld_H_L
  /-- 0x66: LD H,(HL) (R91) -/
  | ld_H_atHL
  /-- 0x67: LD H,A (R89) -/
  | ld_H_A
  /-- 0x68: LD L,B (R89) -/
  | ld_L_B
  /-- 0x69: LD L,C (R89) -/
  | ld_L_C
  /-- 0x6A: LD L,D (R89) -/
  | ld_L_D
  /-- 0x6B: LD L,E (R89) -/
  | ld_L_E
  /-- 0x6C: LD L,H (R89) -/
  | ld_L_H
  /-- 0x6D: LD L,L (R89) -/
  | ld_L_L
  /-- 0x6E: LD L,(HL) (R91) -/
  | ld_L_atHL
  /-- 0x6F: LD L,A (R89) -/
  | ld_L_A
  /-- 0x70: LD (HL),B (R92) -/
  | ld_atHL_B
  /-- 0x71: LD (HL),C (R92) -/
  | ld_atHL_C
  /-- 0x72: LD (HL),D (R92) -/
  | ld_atHL_D
  /-- 0x73: LD (HL),E (R92) -/
  | ld_atHL_E
  /-- 0x74: LD (HL),H (R92) -/
  | ld_atHL_H
  /-- 0x75: LD (HL),L (R92) -/
  | ld_atHL_L
  /-- 0x76: HALT (R149) -/
  | halt
  /-- 0x77: LD (HL),A (R92) -/
  | ld_atHL_A
  /-- 0x78: LD A,B (R89) -/
  | ld_A_B
  /-- 0x79: LD A,C (R89) -/
  | ld_A_C
  /-- 0x7A: LD A,D (R89) -/
  | ld_A_D
  /-- 0x7B: LD A,E (R89) -/
  | ld_A_E
  /-- 0x7C: LD A,H (R89) -/
  | ld_A_H
  /-- 0x7D: LD A,L (R89) -/
  | ld_A_L
  /-- 0x7E: LD A,(HL) (R91) -/
  | ld_A_atHL
  /-- 0x7F: LD A,A (R89) -/
  | ld_A_A
  /-- 0x80: ADD A,B (R117) -/
  | add_A_B
  /-- 0x81: ADD A,C (R117) -/
  | add_A_C
  /-- 0x82: ADD A,D (R117) -/
  | add_A_D
  /-- 0x83: ADD A,E (R117) -/
  | add_A_E
  /-- 0x84: ADD A,H (R117) -/
  | add_A_H
  /-- 0x85: ADD A,L (R117) -/
  | add_A_L
  /-- 0x86: ADD A,(HL) (R117) -/
  | add_A_atHL
  /-- 0x87: ADD A,A (R117) -/
  | add_A_A
  /-- 0x88: ADC A,B (R118) -/
  | adc_A_B
  /-- 0x89: ADC A,C (R118) -/
  | adc_A_C
  /-- 0x8A: ADC A,D (R118) -/
  | adc_A_D
  /-- 0x8B: ADC A,E (R118) -/
  | adc_A_E
  /-- 0x8C: ADC A,H (R118) -/
  | adc_A_H
  /-- 0x8D: ADC A,L (R118) -/
  | adc_A_L
  /-- 0x8E: ADC A,(HL) (R118) -/
  | adc_A_atHL
  /-- 0x8F: ADC A,A (R118) -/
  | adc_A_A
  /-- 0x90: SUB A,B (R119) -/
  | sub_A_B
  /-- 0x91: SUB A,C (R119) -/
  | sub_A_C
  /-- 0x92: SUB A,D (R119) -/
  | sub_A_D
  /-- 0x93: SUB A,E (R119) -/
  | sub_A_E
  /-- 0x94: SUB A,H (R119) -/
  | sub_A_H
  /-- 0x95: SUB A,L (R119) -/
  | sub_A_L
  /-- 0x96: SUB A,(HL) (R119) -/
  | sub_A_atHL
  /-- 0x97: SUB A,A (R119) -/
  | sub_A_A
  /-- 0x98: SBC A,B (R120) -/
  | sbc_A_B
  /-- 0x99: SBC A,C (R120) -/
  | sbc_A_C
  /-- 0x9A: SBC A,D (R120) -/
  | sbc_A_D
  /-- 0x9B: SBC A,E (R120) -/
  | sbc_A_E
  /-- 0x9C: SBC A,H (R120) -/
  | sbc_A_H
  /-- 0x9D: SBC A,L (R120) -/
  | sbc_A_L
  /-- 0x9E: SBC A,(HL) (R120) -/
  | sbc_A_atHL
  /-- 0x9F: SBC A,A (R120) -/
  | sbc_A_A
  /-- 0xA0: AND A,B (R121) -/
  | and_A_B
  /-- 0xA1: AND A,C (R121) -/
  | and_A_C
  /-- 0xA2: AND A,D (R121) -/
  | and_A_D
  /-- 0xA3: AND A,E (R121) -/
  | and_A_E
  /-- 0xA4: AND A,H (R121) -/
  | and_A_H
  /-- 0xA5: AND A,L (R121) -/
  | and_A_L
  /-- 0xA6: AND A,(HL) (R121) -/
  | and_A_atHL
  /-- 0xA7: AND A,A (R121) -/
  | and_A_A
  /-- 0xA8: XOR A,B (R122) -/
  | xor_A_B
  /-- 0xA9: XOR A,C (R122) -/
  | xor_A_C
  /-- 0xAA: XOR A,D (R122) -/
  | xor_A_D
  /-- 0xAB: XOR A,E (R122) -/
  | xor_A_E
  /-- 0xAC: XOR A,H (R122) -/
  | xor_A_H
  /-- 0xAD: XOR A,L (R122) -/
  | xor_A_L
  /-- 0xAE: XOR A,(HL) (R122) -/
  | xor_A_atHL
  /-- 0xAF: XOR A,A (R122) -/
  | xor_A_A
  /-- 0xB0: OR A,B (R123) -/
  | or_A_B
  /-- 0xB1: OR A,C (R123) -/
  | or_A_C
  /-- 0xB2: OR A,D (R123) -/
  | or_A_D
  /-- 0xB3: OR A,E (R123) -/
  | or_A_E
  /-- 0xB4: OR A,H (R123) -/
  | or_A_H
  /-- 0xB5: OR A,L (R123) -/
  | or_A_L
  /-- 0xB6: OR A,(HL) (R123) -/
  | or_A_atHL
  /-- 0xB7: OR A,A (R123) -/
  | or_A_A
  /-- 0xB8: CP A,B (R124) -/
  | cp_A_B
  /-- 0xB9: CP A,C (R124) -/
  | cp_A_C
  /-- 0xBA: CP A,D (R124) -/
  | cp_A_D
  /-- 0xBB: CP A,E (R124) -/
  | cp_A_E
  /-- 0xBC: CP A,H (R124) -/
  | cp_A_H
  /-- 0xBD: CP A,L (R124) -/
  | cp_A_L
  /-- 0xBE: CP A,(HL) (R124) -/
  | cp_A_atHL
  /-- 0xBF: CP A,A (R124) -/
  | cp_A_A
  /-- 0xC0: RET NZ (R145) -/
  | ret_NZ
  /-- 0xC1: POP BC (R115) -/
  | pop_BC
  /-- 0xC2: JP NZ,nn (R141) -/
  | jp_NZ_nn
  /-- 0xC3: JP nn (R141) -/
  | jp_nn
  /-- 0xC4: CALL NZ,nn (R144) -/
  | call_NZ_nn
  /-- 0xC5: PUSH BC (R114) -/
  | push_BC
  /-- 0xC6: ADD A,n (R117) -/
  | add_A_n
  /-- 0xC7: RST 00h (R147) -/
  | rst_00h
  /-- 0xC8: RET Z (R145) -/
  | ret_Z
  /-- 0xC9: RET (R145) -/
  | ret
  /-- 0xCA: JP Z,nn (R141) -/
  | jp_Z_nn
  /-- 0xCC: CALL Z,nn (R144) -/
  | call_Z_nn
  /-- 0xCD: CALL nn (R144) -/
  | call_nn
  /-- 0xCE: ADC A,n (R118) -/
  | adc_A_n
  /-- 0xCF: RST 08h (R147) -/
  | rst_08h
  /-- 0xD0: RET NC (R145) -/
  | ret_NC
  /-- 0xD1: POP DE (R115) -/
  | pop_DE
  /-- 0xD2: JP NC,nn (R141) -/
  | jp_NC_nn
  /-- 0xD4: CALL NC,nn (R144) -/
  | call_NC_nn
  /-- 0xD5: PUSH DE (R114) -/
  | push_DE
  /-- 0xD6: SUB A,n (R119) -/
  | sub_A_n
  /-- 0xD7: RST 10h (R147) -/
  | rst_10h
  /-- 0xD8: RET C (R145) -/
  | ret_C
  /-- 0xD9: RETI (R146) -/
  | reti
  /-- 0xDA: JP C,nn (R141) -/
  | jp_C_nn
  /-- 0xDC: CALL C,nn (R144) -/
  | call_C_nn
  /-- 0xDE: SBC A,n (R120) -/
  | sbc_A_n
  /-- 0xDF: RST 18h (R147) -/
  | rst_18h
  /-- 0xE0: LDH (n),A (R105) -/
  | ldh_atN_A
  /-- 0xE1: POP HL (R115) -/
  | pop_HL
  /-- 0xE2: LD (C),A (R107) -/
  | ld_atC_A
  /-- 0xE5: PUSH HL (R114) -/
  | push_HL
  /-- 0xE6: AND A,n (R121) -/
  | and_A_n
  /-- 0xE7: RST 20h (R147) -/
  | rst_20h
  /-- 0xE8: ADD SP,e (R138) -/
  | add_SP_e
  /-- 0xE9: JP HL (R142) -/
  | jp_HL
  /-- 0xEA: LD (nn),A (R103) -/
  | ld_atNN_A
  /-- 0xEE: XOR A,n (R122) -/
  | xor_A_n
  /-- 0xEF: RST 28h (R147) -/
  | rst_28h
  /-- 0xF0: LDH A,(n) (R104) -/
  | ldh_A_atN
  /-- 0xF1: POP AF (R115) -/
  | pop_AF
  /-- 0xF2: LD A,(C) (R106) -/
  | ld_A_atC
  /-- 0xF3: DI (R151) -/
  | di
  /-- 0xF5: PUSH AF (R114) -/
  | push_AF
  /-- 0xF6: OR A,n (R123) -/
  | or_A_n
  /-- 0xF7: RST 30h (R147) -/
  | rst_30h
  /-- 0xF8: LD HL,SP+e (R111) -/
  | ld_HL_SPe
  /-- 0xF9: LD SP,HL (R110) -/
  | ld_SP_HL
  /-- 0xFA: LD A,(nn) (R102) -/
  | ld_A_atNN
  /-- 0xFB: EI (R152) -/
  | ei
  /-- 0xFE: CP A,n (R124) -/
  | cp_A_n
  /-- 0xFF: RST 38h (R147) -/
  | rst_38h
  /-- 0xCB: PREFIX CB, the escape byte (R77, R153) -/
  | prefixCb
  deriving DecidableEq, Repr

/-- The decoded value of a row, as opcode_table.json's `instr` field gives it (R72, R75, R154); the illegal rows and the
escape row have none (R76, R77). -/
def Instr.op : Instr → Option Op
  | .nop => some (.nop)
  | .ld_BC_nn => some (.ld16 (.imm .bc))
  | .ld_atBC_A => some (.ld8 .indBC (.reg .a))
  | .inc_BC => some (.inc16 .bc)
  | .inc_B => some (.inc8 (.reg .b))
  | .dec_B => some (.dec8 (.reg .b))
  | .ld_B_n => some (.ld8 (.reg .b) .imm8)
  | .rlca => some (.rlca)
  | .ld_atNN_SP => some (.ld16 .nnSP)
  | .add_HL_BC => some (.add16 .bc)
  | .ld_A_atBC => some (.ld8 (.reg .a) .indBC)
  | .dec_BC => some (.dec16 .bc)
  | .inc_C => some (.inc8 (.reg .c))
  | .dec_C => some (.dec8 (.reg .c))
  | .ld_C_n => some (.ld8 (.reg .c) .imm8)
  | .rrca => some (.rrca)
  | .stop => some (.stop)
  | .ld_DE_nn => some (.ld16 (.imm .de))
  | .ld_atDE_A => some (.ld8 .indDE (.reg .a))
  | .inc_DE => some (.inc16 .de)
  | .inc_D => some (.inc8 (.reg .d))
  | .dec_D => some (.dec8 (.reg .d))
  | .ld_D_n => some (.ld8 (.reg .d) .imm8)
  | .rla => some (.rla)
  | .jr_e => some (.jp .always .rel8)
  | .add_HL_DE => some (.add16 .de)
  | .ld_A_atDE => some (.ld8 (.reg .a) .indDE)
  | .dec_DE => some (.dec16 .de)
  | .inc_E => some (.inc8 (.reg .e))
  | .dec_E => some (.dec8 (.reg .e))
  | .ld_E_n => some (.ld8 (.reg .e) .imm8)
  | .rra => some (.rra)
  | .jr_NZ_e => some (.jp .nz .rel8)
  | .ld_HL_nn => some (.ld16 (.imm .hl))
  | .ld_atHLi_A => some (.ld8 .indHLInc (.reg .a))
  | .inc_HL => some (.inc16 .hl)
  | .inc_H => some (.inc8 (.reg .h))
  | .dec_H => some (.dec8 (.reg .h))
  | .ld_H_n => some (.ld8 (.reg .h) .imm8)
  | .daa => some (.daa)
  | .jr_Z_e => some (.jp .z .rel8)
  | .add_HL_HL => some (.add16 .hl)
  | .ld_A_atHLi => some (.ld8 (.reg .a) .indHLInc)
  | .dec_HL => some (.dec16 .hl)
  | .inc_L => some (.inc8 (.reg .l))
  | .dec_L => some (.dec8 (.reg .l))
  | .ld_L_n => some (.ld8 (.reg .l) .imm8)
  | .cpl => some (.cpl)
  | .jr_NC_e => some (.jp .nc .rel8)
  | .ld_SP_nn => some (.ld16 (.imm .sp))
  | .ld_atHLd_A => some (.ld8 .indHLDec (.reg .a))
  | .inc_SP => some (.inc16 .sp)
  | .inc_atHL => some (.inc8 .indHL)
  | .dec_atHL => some (.dec8 .indHL)
  | .ld_atHL_n => some (.ld8 .indHL .imm8)
  | .scf => some (.scf)
  | .jr_C_e => some (.jp .c .rel8)
  | .add_HL_SP => some (.add16 .sp)
  | .ld_A_atHLd => some (.ld8 (.reg .a) .indHLDec)
  | .dec_SP => some (.dec16 .sp)
  | .inc_A => some (.inc8 (.reg .a))
  | .dec_A => some (.dec8 (.reg .a))
  | .ld_A_n => some (.ld8 (.reg .a) .imm8)
  | .ccf => some (.ccf)
  | .ld_B_B => some (.ld8 (.reg .b) (.reg .b))
  | .ld_B_C => some (.ld8 (.reg .b) (.reg .c))
  | .ld_B_D => some (.ld8 (.reg .b) (.reg .d))
  | .ld_B_E => some (.ld8 (.reg .b) (.reg .e))
  | .ld_B_H => some (.ld8 (.reg .b) (.reg .h))
  | .ld_B_L => some (.ld8 (.reg .b) (.reg .l))
  | .ld_B_atHL => some (.ld8 (.reg .b) .indHL)
  | .ld_B_A => some (.ld8 (.reg .b) (.reg .a))
  | .ld_C_B => some (.ld8 (.reg .c) (.reg .b))
  | .ld_C_C => some (.ld8 (.reg .c) (.reg .c))
  | .ld_C_D => some (.ld8 (.reg .c) (.reg .d))
  | .ld_C_E => some (.ld8 (.reg .c) (.reg .e))
  | .ld_C_H => some (.ld8 (.reg .c) (.reg .h))
  | .ld_C_L => some (.ld8 (.reg .c) (.reg .l))
  | .ld_C_atHL => some (.ld8 (.reg .c) .indHL)
  | .ld_C_A => some (.ld8 (.reg .c) (.reg .a))
  | .ld_D_B => some (.ld8 (.reg .d) (.reg .b))
  | .ld_D_C => some (.ld8 (.reg .d) (.reg .c))
  | .ld_D_D => some (.ld8 (.reg .d) (.reg .d))
  | .ld_D_E => some (.ld8 (.reg .d) (.reg .e))
  | .ld_D_H => some (.ld8 (.reg .d) (.reg .h))
  | .ld_D_L => some (.ld8 (.reg .d) (.reg .l))
  | .ld_D_atHL => some (.ld8 (.reg .d) .indHL)
  | .ld_D_A => some (.ld8 (.reg .d) (.reg .a))
  | .ld_E_B => some (.ld8 (.reg .e) (.reg .b))
  | .ld_E_C => some (.ld8 (.reg .e) (.reg .c))
  | .ld_E_D => some (.ld8 (.reg .e) (.reg .d))
  | .ld_E_E => some (.ld8 (.reg .e) (.reg .e))
  | .ld_E_H => some (.ld8 (.reg .e) (.reg .h))
  | .ld_E_L => some (.ld8 (.reg .e) (.reg .l))
  | .ld_E_atHL => some (.ld8 (.reg .e) .indHL)
  | .ld_E_A => some (.ld8 (.reg .e) (.reg .a))
  | .ld_H_B => some (.ld8 (.reg .h) (.reg .b))
  | .ld_H_C => some (.ld8 (.reg .h) (.reg .c))
  | .ld_H_D => some (.ld8 (.reg .h) (.reg .d))
  | .ld_H_E => some (.ld8 (.reg .h) (.reg .e))
  | .ld_H_H => some (.ld8 (.reg .h) (.reg .h))
  | .ld_H_L => some (.ld8 (.reg .h) (.reg .l))
  | .ld_H_atHL => some (.ld8 (.reg .h) .indHL)
  | .ld_H_A => some (.ld8 (.reg .h) (.reg .a))
  | .ld_L_B => some (.ld8 (.reg .l) (.reg .b))
  | .ld_L_C => some (.ld8 (.reg .l) (.reg .c))
  | .ld_L_D => some (.ld8 (.reg .l) (.reg .d))
  | .ld_L_E => some (.ld8 (.reg .l) (.reg .e))
  | .ld_L_H => some (.ld8 (.reg .l) (.reg .h))
  | .ld_L_L => some (.ld8 (.reg .l) (.reg .l))
  | .ld_L_atHL => some (.ld8 (.reg .l) .indHL)
  | .ld_L_A => some (.ld8 (.reg .l) (.reg .a))
  | .ld_atHL_B => some (.ld8 .indHL (.reg .b))
  | .ld_atHL_C => some (.ld8 .indHL (.reg .c))
  | .ld_atHL_D => some (.ld8 .indHL (.reg .d))
  | .ld_atHL_E => some (.ld8 .indHL (.reg .e))
  | .ld_atHL_H => some (.ld8 .indHL (.reg .h))
  | .ld_atHL_L => some (.ld8 .indHL (.reg .l))
  | .halt => some (.halt)
  | .ld_atHL_A => some (.ld8 .indHL (.reg .a))
  | .ld_A_B => some (.ld8 (.reg .a) (.reg .b))
  | .ld_A_C => some (.ld8 (.reg .a) (.reg .c))
  | .ld_A_D => some (.ld8 (.reg .a) (.reg .d))
  | .ld_A_E => some (.ld8 (.reg .a) (.reg .e))
  | .ld_A_H => some (.ld8 (.reg .a) (.reg .h))
  | .ld_A_L => some (.ld8 (.reg .a) (.reg .l))
  | .ld_A_atHL => some (.ld8 (.reg .a) .indHL)
  | .ld_A_A => some (.ld8 (.reg .a) (.reg .a))
  | .add_A_B => some (.alu .add (.reg .b))
  | .add_A_C => some (.alu .add (.reg .c))
  | .add_A_D => some (.alu .add (.reg .d))
  | .add_A_E => some (.alu .add (.reg .e))
  | .add_A_H => some (.alu .add (.reg .h))
  | .add_A_L => some (.alu .add (.reg .l))
  | .add_A_atHL => some (.alu .add .indHL)
  | .add_A_A => some (.alu .add (.reg .a))
  | .adc_A_B => some (.alu .adc (.reg .b))
  | .adc_A_C => some (.alu .adc (.reg .c))
  | .adc_A_D => some (.alu .adc (.reg .d))
  | .adc_A_E => some (.alu .adc (.reg .e))
  | .adc_A_H => some (.alu .adc (.reg .h))
  | .adc_A_L => some (.alu .adc (.reg .l))
  | .adc_A_atHL => some (.alu .adc .indHL)
  | .adc_A_A => some (.alu .adc (.reg .a))
  | .sub_A_B => some (.alu .sub (.reg .b))
  | .sub_A_C => some (.alu .sub (.reg .c))
  | .sub_A_D => some (.alu .sub (.reg .d))
  | .sub_A_E => some (.alu .sub (.reg .e))
  | .sub_A_H => some (.alu .sub (.reg .h))
  | .sub_A_L => some (.alu .sub (.reg .l))
  | .sub_A_atHL => some (.alu .sub .indHL)
  | .sub_A_A => some (.alu .sub (.reg .a))
  | .sbc_A_B => some (.alu .sbc (.reg .b))
  | .sbc_A_C => some (.alu .sbc (.reg .c))
  | .sbc_A_D => some (.alu .sbc (.reg .d))
  | .sbc_A_E => some (.alu .sbc (.reg .e))
  | .sbc_A_H => some (.alu .sbc (.reg .h))
  | .sbc_A_L => some (.alu .sbc (.reg .l))
  | .sbc_A_atHL => some (.alu .sbc .indHL)
  | .sbc_A_A => some (.alu .sbc (.reg .a))
  | .and_A_B => some (.alu .and (.reg .b))
  | .and_A_C => some (.alu .and (.reg .c))
  | .and_A_D => some (.alu .and (.reg .d))
  | .and_A_E => some (.alu .and (.reg .e))
  | .and_A_H => some (.alu .and (.reg .h))
  | .and_A_L => some (.alu .and (.reg .l))
  | .and_A_atHL => some (.alu .and .indHL)
  | .and_A_A => some (.alu .and (.reg .a))
  | .xor_A_B => some (.alu .xor (.reg .b))
  | .xor_A_C => some (.alu .xor (.reg .c))
  | .xor_A_D => some (.alu .xor (.reg .d))
  | .xor_A_E => some (.alu .xor (.reg .e))
  | .xor_A_H => some (.alu .xor (.reg .h))
  | .xor_A_L => some (.alu .xor (.reg .l))
  | .xor_A_atHL => some (.alu .xor .indHL)
  | .xor_A_A => some (.alu .xor (.reg .a))
  | .or_A_B => some (.alu .or (.reg .b))
  | .or_A_C => some (.alu .or (.reg .c))
  | .or_A_D => some (.alu .or (.reg .d))
  | .or_A_E => some (.alu .or (.reg .e))
  | .or_A_H => some (.alu .or (.reg .h))
  | .or_A_L => some (.alu .or (.reg .l))
  | .or_A_atHL => some (.alu .or .indHL)
  | .or_A_A => some (.alu .or (.reg .a))
  | .cp_A_B => some (.alu .cp (.reg .b))
  | .cp_A_C => some (.alu .cp (.reg .c))
  | .cp_A_D => some (.alu .cp (.reg .d))
  | .cp_A_E => some (.alu .cp (.reg .e))
  | .cp_A_H => some (.alu .cp (.reg .h))
  | .cp_A_L => some (.alu .cp (.reg .l))
  | .cp_A_atHL => some (.alu .cp .indHL)
  | .cp_A_A => some (.alu .cp (.reg .a))
  | .ret_NZ => some (.ret .nz)
  | .pop_BC => some (.pop .bc)
  | .jp_NZ_nn => some (.jp .nz .imm16)
  | .jp_nn => some (.jp .always .imm16)
  | .call_NZ_nn => some (.call .nz)
  | .push_BC => some (.push .bc)
  | .add_A_n => some (.alu .add .imm8)
  | .rst_00h => some (.rst 0x0000)
  | .ret_Z => some (.ret .z)
  | .ret => some (.ret .always)
  | .jp_Z_nn => some (.jp .z .imm16)
  | .call_Z_nn => some (.call .z)
  | .call_nn => some (.call .always)
  | .adc_A_n => some (.alu .adc .imm8)
  | .rst_08h => some (.rst 0x0008)
  | .ret_NC => some (.ret .nc)
  | .pop_DE => some (.pop .de)
  | .jp_NC_nn => some (.jp .nc .imm16)
  | .call_NC_nn => some (.call .nc)
  | .push_DE => some (.push .de)
  | .sub_A_n => some (.alu .sub .imm8)
  | .rst_10h => some (.rst 0x0010)
  | .ret_C => some (.ret .c)
  | .reti => some (.ret .alwaysIe)
  | .jp_C_nn => some (.jp .c .imm16)
  | .call_C_nn => some (.call .c)
  | .sbc_A_n => some (.alu .sbc .imm8)
  | .rst_18h => some (.rst 0x0018)
  | .ldh_atN_A => some (.ld8 .highImm (.reg .a))
  | .pop_HL => some (.pop .hl)
  | .ld_atC_A => some (.ld8 .highC (.reg .a))
  | .push_HL => some (.push .hl)
  | .and_A_n => some (.alu .and .imm8)
  | .rst_20h => some (.rst 0x0020)
  | .add_SP_e => some (.addSp)
  | .jp_HL => some (.jp .always .hl)
  | .ld_atNN_A => some (.ld8 .abs16 (.reg .a))
  | .xor_A_n => some (.alu .xor .imm8)
  | .rst_28h => some (.rst 0x0028)
  | .ldh_A_atN => some (.ld8 (.reg .a) .highImm)
  | .pop_AF => some (.pop .af)
  | .ld_A_atC => some (.ld8 (.reg .a) .highC)
  | .di => some (.di)
  | .push_AF => some (.push .af)
  | .or_A_n => some (.alu .or .imm8)
  | .rst_30h => some (.rst 0x0030)
  | .ld_HL_SPe => some (.ld16 .hlSPe)
  | .ld_SP_HL => some (.ld16 .spHL)
  | .ld_A_atNN => some (.ld8 (.reg .a) .abs16)
  | .ei => some (.ei)
  | .cp_A_n => some (.alu .cp .imm8)
  | .rst_38h => some (.rst 0x0038)
  | .illegal _ => none
  | .prefixCb => none
  | .rlc t => some (.cb .rlc t)
  | .rrc t => some (.cb .rrc t)
  | .rl t => some (.cb .rl t)
  | .rr t => some (.cb .rr t)
  | .sla t => some (.cb .sla t)
  | .sra t => some (.cb .sra t)
  | .swap t => some (.cb .swap t)
  | .srl t => some (.cb .srl t)
  | .bit b t => some (.cb (.bit b) t)
  | .res b t => some (.cb (.res b) t)
  | .set b t => some (.cb (.set b) t)

end Sys2Proof
end

