-- ==== Sys2Proof/WellFormed.lean ====
section
/-! DEFINITION. Which terms are instructions of the machine: the admitted operand combinations of 30_encoding.md R73, and
for a row of the opcode table, that it has a decoded value and an admitted one. A well-formed row is one the decoder can
produce (R73); an illegal byte and the bare escape are no instruction (R76, R77). -/

namespace Sys2Proof

/-- `reg r` or (HL): the operands of INC, DEC and the prefixed space (R73). -/
def Loc8.isReadModifyWrite : Loc8 → Bool
  | .reg _ | .indHL => true
  | .indBC | .indDE | .indHLInc | .indHLDec | .imm8 | .abs16 | .highImm | .highC => false

/-- `reg r`, (HL) or n: the source operands of the 8-bit ALU (R73, R116). -/
def Loc8.isAluSource : Loc8 → Bool
  | .reg _ | .indHL | .imm8 => true
  | .indBC | .indDE | .indHLInc | .indHLDec | .abs16 | .highImm | .highC => false

/-- The memory operands that load or store A only (R73). -/
def Loc8.isAccumulatorOnly : Loc8 → Bool
  | .indBC | .indDE | .indHLInc | .indHLDec | .abs16 | .highImm | .highC => true
  | .reg _ | .indHL | .imm8 => false

/-- The admitted LD8 combinations, destination first (R73). -/
def admittedLd8 : Loc8 → Loc8 → Bool
  | .reg r, src => src.isAluSource || (r == .a && src.isAccumulatorOnly)
  | .indHL, src => match src with
    | .reg _ | .imm8 => true
    | .indBC | .indDE | .indHL | .indHLInc | .indHLDec | .abs16 | .highImm | .highC => false
  | .imm8, _ => false
  | .indBC, src | .indDE, src | .indHLInc, src | .indHLDec, src | .abs16, src | .highImm, src | .highC, src =>
    src == .reg .a

/-- The admitted decoded values (R73): every one but an unadmitted Loc8 combination. -/
def Op.admitted : Op → Bool
  | .ld8 dst src => admittedLd8 dst src
  | .alu _ src => src.isAluSource
  | .inc8 t | .dec8 t | .cb _ t => t.isReadModifyWrite
  | .ld16 _ | .push _ | .pop _ | .daa | .cpl | .scf | .ccf | .rlca | .rrca | .rla | .rra
  | .inc16 _ | .dec16 _ | .add16 _ | .addSp | .jp _ _ | .call _ | .ret _ | .rst _
  | .nop | .halt | .stop | .di | .ei => true

/-- A row is a well-formed instruction when it has a decoded value and that value is admitted (R73, R76, R77). -/
def Instr.wf (i : Instr) : Bool :=
  match i.op with
  | some o => o.admitted
  | none => false

end Sys2Proof
end

