-- ==== Sys2Proof/Decode.lean ====
section
/-! DEFINITION. The decoder of 30_encoding.md sections 1 to 4 and 45_prefixed.md R154, total on any bytes and rejecting by
name, and the encoder. The non-prefixed table is data indexed by the byte, as R75 asks; `decodeFields` is the same map
written from R75's second table, by the fields x, y, z, p, q of R62, to be held against it. The opcode values are the
spec's decision D6 (general knowledge, G1). -/

namespace Sys2Proof

/-! ## Fields of the opcode byte (R62) -/

/-- x = op[7:6] (R62). -/
def fieldX (op : Byte) : Nat := op.toNat / 64
/-- y = op[5:3] (R62). -/
def fieldY (op : Byte) : Nat := op.toNat / 8 % 8
/-- z = op[2:0] (R62). -/
def fieldZ (op : Byte) : Nat := op.toNat % 8
/-- p = op[5:4] (R62). -/
def fieldP (op : Byte) : Nat := op.toNat / 16 % 4
/-- q = op[3] (R62). -/
def fieldQ (op : Byte) : Nat := op.toNat / 8 % 2

/-- The r8 table (R63); its index 6 is the byte at HL. -/
def r8Table : List Loc8 := [.reg .b, .reg .c, .reg .d, .reg .e, .reg .h, .reg .l, .indHL, .reg .a]
/-- The rp table (R64). -/
def rpTable : List Reg16 := [.bc, .de, .hl, .sp]
/-- The rp2 table (R64). -/
def rp2Table : List StkReg := [.bc, .de, .hl, .af]
/-- The condition table (R65). -/
def ccTable : List Cond := [.nz, .z, .nc, .c]
/-- The ALU table (R65). -/
def aluTable : List AluOp := [.add, .adc, .sub, .sbc, .and, .xor, .or, .cp]

/-- The operand of a 3-bit field (R63). -/
def r8 (k : Nat) : Loc8 := r8Table.getD k (.reg .a)

/-! ## The non-prefixed opcode map, row = high nibble, column = low nibble (R75) -/

/-- Row 0x of the opcode map (R75). -/
def opcodeRow0 : List Instr :=
  [.nop, .ld_BC_nn, .ld_atBC_A, .inc_BC, .inc_B, .dec_B, .ld_B_n, .rlca,
   .ld_atNN_SP, .add_HL_BC, .ld_A_atBC, .dec_BC, .inc_C, .dec_C, .ld_C_n, .rrca]
/-- Row 1x of the opcode map (R75). -/
def opcodeRow1 : List Instr :=
  [.stop, .ld_DE_nn, .ld_atDE_A, .inc_DE, .inc_D, .dec_D, .ld_D_n, .rla,
   .jr_e, .add_HL_DE, .ld_A_atDE, .dec_DE, .inc_E, .dec_E, .ld_E_n, .rra]
/-- Row 2x of the opcode map (R75). -/
def opcodeRow2 : List Instr :=
  [.jr_NZ_e, .ld_HL_nn, .ld_atHLi_A, .inc_HL, .inc_H, .dec_H, .ld_H_n, .daa,
   .jr_Z_e, .add_HL_HL, .ld_A_atHLi, .dec_HL, .inc_L, .dec_L, .ld_L_n, .cpl]
/-- Row 3x of the opcode map (R75). -/
def opcodeRow3 : List Instr :=
  [.jr_NC_e, .ld_SP_nn, .ld_atHLd_A, .inc_SP, .inc_atHL, .dec_atHL, .ld_atHL_n, .scf,
   .jr_C_e, .add_HL_SP, .ld_A_atHLd, .dec_SP, .inc_A, .dec_A, .ld_A_n, .ccf]
/-- Row 4x of the opcode map (R75). -/
def opcodeRow4 : List Instr :=
  [.ld_B_B, .ld_B_C, .ld_B_D, .ld_B_E, .ld_B_H, .ld_B_L, .ld_B_atHL, .ld_B_A,
   .ld_C_B, .ld_C_C, .ld_C_D, .ld_C_E, .ld_C_H, .ld_C_L, .ld_C_atHL, .ld_C_A]
/-- Row 5x of the opcode map (R75). -/
def opcodeRow5 : List Instr :=
  [.ld_D_B, .ld_D_C, .ld_D_D, .ld_D_E, .ld_D_H, .ld_D_L, .ld_D_atHL, .ld_D_A,
   .ld_E_B, .ld_E_C, .ld_E_D, .ld_E_E, .ld_E_H, .ld_E_L, .ld_E_atHL, .ld_E_A]
/-- Row 6x of the opcode map (R75). -/
def opcodeRow6 : List Instr :=
  [.ld_H_B, .ld_H_C, .ld_H_D, .ld_H_E, .ld_H_H, .ld_H_L, .ld_H_atHL, .ld_H_A,
   .ld_L_B, .ld_L_C, .ld_L_D, .ld_L_E, .ld_L_H, .ld_L_L, .ld_L_atHL, .ld_L_A]
/-- Row 7x of the opcode map (R75). -/
def opcodeRow7 : List Instr :=
  [.ld_atHL_B, .ld_atHL_C, .ld_atHL_D, .ld_atHL_E, .ld_atHL_H, .ld_atHL_L, .halt, .ld_atHL_A,
   .ld_A_B, .ld_A_C, .ld_A_D, .ld_A_E, .ld_A_H, .ld_A_L, .ld_A_atHL, .ld_A_A]
/-- Row 8x of the opcode map (R75). -/
def opcodeRow8 : List Instr :=
  [.add_A_B, .add_A_C, .add_A_D, .add_A_E, .add_A_H, .add_A_L, .add_A_atHL, .add_A_A,
   .adc_A_B, .adc_A_C, .adc_A_D, .adc_A_E, .adc_A_H, .adc_A_L, .adc_A_atHL, .adc_A_A]
/-- Row 9x of the opcode map (R75). -/
def opcodeRow9 : List Instr :=
  [.sub_A_B, .sub_A_C, .sub_A_D, .sub_A_E, .sub_A_H, .sub_A_L, .sub_A_atHL, .sub_A_A,
   .sbc_A_B, .sbc_A_C, .sbc_A_D, .sbc_A_E, .sbc_A_H, .sbc_A_L, .sbc_A_atHL, .sbc_A_A]
/-- Row Ax of the opcode map (R75). -/
def opcodeRowA : List Instr :=
  [.and_A_B, .and_A_C, .and_A_D, .and_A_E, .and_A_H, .and_A_L, .and_A_atHL, .and_A_A,
   .xor_A_B, .xor_A_C, .xor_A_D, .xor_A_E, .xor_A_H, .xor_A_L, .xor_A_atHL, .xor_A_A]
/-- Row Bx of the opcode map (R75). -/
def opcodeRowB : List Instr :=
  [.or_A_B, .or_A_C, .or_A_D, .or_A_E, .or_A_H, .or_A_L, .or_A_atHL, .or_A_A,
   .cp_A_B, .cp_A_C, .cp_A_D, .cp_A_E, .cp_A_H, .cp_A_L, .cp_A_atHL, .cp_A_A]
/-- Row Cx of the opcode map (R75). -/
def opcodeRowC : List Instr :=
  [.ret_NZ, .pop_BC, .jp_NZ_nn, .jp_nn, .call_NZ_nn, .push_BC, .add_A_n, .rst_00h,
   .ret_Z, .ret, .jp_Z_nn, .prefixCb, .call_Z_nn, .call_nn, .adc_A_n, .rst_08h]
/-- Row Dx of the opcode map (R75). -/
def opcodeRowD : List Instr :=
  [.ret_NC, .pop_DE, .jp_NC_nn, .illegal 0xD3, .call_NC_nn, .push_DE, .sub_A_n, .rst_10h,
   .ret_C, .reti, .jp_C_nn, .illegal 0xDB, .call_C_nn, .illegal 0xDD, .sbc_A_n, .rst_18h]
/-- Row Ex of the opcode map (R75). -/
def opcodeRowE : List Instr :=
  [.ldh_atN_A, .pop_HL, .ld_atC_A, .illegal 0xE3, .illegal 0xE4, .push_HL, .and_A_n, .rst_20h,
   .add_SP_e, .jp_HL, .ld_atNN_A, .illegal 0xEB, .illegal 0xEC, .illegal 0xED, .xor_A_n, .rst_28h]
/-- Row Fx of the opcode map (R75). -/
def opcodeRowF : List Instr :=
  [.ldh_A_atN, .pop_AF, .ld_A_atC, .di, .illegal 0xF4, .push_AF, .or_A_n, .rst_30h,
   .ld_HL_SPe, .ld_SP_HL, .ld_A_atNN, .ei, .illegal 0xFC, .illegal 0xFD, .cp_A_n, .rst_38h]

/-- The opcode map (R75): sixteen rows of sixteen. -/
def opcodeMap : List (List Instr) :=
  [opcodeRow0, opcodeRow1, opcodeRow2, opcodeRow3, opcodeRow4, opcodeRow5, opcodeRow6, opcodeRow7,
   opcodeRow8, opcodeRow9, opcodeRowA, opcodeRowB, opcodeRowC, opcodeRowD, opcodeRowE, opcodeRowF]

/-- The map's entry for a byte. -/
def decodeRow (op : Byte) : Instr :=
  (opcodeMap.getD (op.toNat / 16) []).getD (op.toNat % 16) (.illegal op)

/-! ## The prefixed space (R154) -/

/-- The rotates, shifts and SWAP of the x = 0 quarter, by the y field (R154). -/
def cbShiftRow (y : Nat) (t : Loc8) : Instr :=
  [Instr.rlc t, .rrc t, .rl t, .rr t, .sla t, .sra t, .swap t, .srl t].getD y (.srl t)

/-- The FULL prefixed table (R154): every code is an instruction. -/
def decodeCb (code : Byte) : Instr :=
  let t := r8 (fieldZ code)
  let b : Fin 8 := Fin.ofNat 8 (fieldY code)
  if fieldX code = 0 then cbShiftRow (fieldY code) t
  else if fieldX code = 1 then .bit b t
  else if fieldX code = 2 then .res b t
  else .set b t

/-! ## The decoder (R74) -/

/-- Why the decoder gives no instruction. -/
inductive Reject where
  /-- One of the eleven bytes with no instruction (R76). -/
  | illegalOpcode (code : Byte)
  /-- The escape byte given to the non-prefixed table (R77). -/
  | escapeByte
  /-- Any code of the prefixed space under P_PREFIXED_TABLE = STUB (R78, R153). -/
  | stubTable (code : Byte)
  /-- The byte list ends before the opcode does. -/
  | truncated
  deriving DecidableEq, Repr

/-- Decode (opcode byte, prefixed flag), rejecting by name (R74 to R78). -/
def decodeNamed (tbl : PrefixTable) (code : Byte) (prefixed : Bool) : Except Reject Instr :=
  if prefixed then
    match tbl with
    | .stub => .error (.stubTable code)
    | .full => .ok (decodeCb code)
  else if (decodeRow code).wf then .ok (decodeRow code)
  else if code = 0xCB then .error .escapeByte
  else .error (.illegalOpcode code)

/-- The decoder of R74: total, pure, a function of the opcode byte, the prefixed flag and the table parameter (R6). -/
def decode (tbl : PrefixTable) (code : Byte) (prefixed : Bool) : Option Instr :=
  (decodeNamed tbl code prefixed).toOption

/-- Decode the instruction at the head of a list of bytes: 0xCB escapes to the prefixed table (R61, R85). Operand bytes
stay in the list: a decoded instruction carries no immediate (R72). -/
def decodeBytes (tbl : PrefixTable) : List Byte → Except Reject Instr
  | [] => .error .truncated
  | b0 :: rest =>
    if b0 = 0xCB then
      match rest with
      | [] => .error .truncated
      | code :: _ => decodeNamed tbl code true
    else decodeNamed tbl b0 false

/-! ## The same map by fields (R75, second table) -/

/-- The x = 0 quarter by fields (R75). -/
def decodeFields0 (y z p q : Nat) : Option Op :=
  if z = 0 then
    if y = 0 then some .nop
    else if y = 1 then some (.ld16 .nnSP)
    else if y = 2 then some .stop
    else if y = 3 then some (.jp .always .rel8)
    else ccTable[y - 4]?.map (.jp · .rel8)
  else if z = 1 then
    if q = 0 then rpTable[p]?.map (fun r => .ld16 (.imm r)) else rpTable[p]?.map .add16
  else if z = 2 then
    let s := [Loc8.indBC, .indDE, .indHLInc, .indHLDec][p]?
    if q = 0 then s.map (.ld8 · (.reg .a)) else s.map (.ld8 (.reg .a) ·)
  else if z = 3 then
    if q = 0 then rpTable[p]?.map .inc16 else rpTable[p]?.map .dec16
  else if z = 4 then r8Table[y]?.map .inc8
  else if z = 5 then r8Table[y]?.map .dec8
  else if z = 6 then r8Table[y]?.map (.ld8 · .imm8)
  else [Op.rlca, .rrca, .rla, .rra, .daa, .cpl, .scf, .ccf][y]?

/-- The x = 3 quarter by fields (R75). -/
def decodeFields3 (y z p q : Nat) : Option Op :=
  if z = 0 then
    if y < 4 then ccTable[y]?.map .ret
    else if y = 4 then some (.ld8 .highImm (.reg .a))
    else if y = 5 then some .addSp
    else if y = 6 then some (.ld8 (.reg .a) .highImm)
    else some (.ld16 .hlSPe)
  else if z = 1 then
    if q = 0 then rp2Table[p]?.map .pop
    else [Op.ret .always, .ret .alwaysIe, .jp .always .hl, .ld16 .spHL][p]?
  else if z = 2 then
    if y < 4 then ccTable[y]?.map (.jp · .imm16)
    else [Op.ld8 .highC (.reg .a), .ld8 .abs16 (.reg .a), .ld8 (.reg .a) .highC, .ld8 (.reg .a) .abs16][y - 4]?
  else if z = 3 then
    if y = 0 then some (.jp .always .imm16)
    else if y = 6 then some .di
    else if y = 7 then some .ei
    else none
  else if z = 4 then
    if y < 4 then ccTable[y]?.map .call else none
  else if z = 5 then
    if q = 0 then rp2Table[p]?.map .push
    else if p = 0 then some (.call .always) else none
  else if z = 6 then aluTable[y]?.map (.alu · .imm8)
  else some (.rst (BitVec.ofNat 16 (y * 8)))

/-- The non-prefixed map by fields (R75, second table). -/
def decodeFields (op : Byte) : Option Op :=
  let y := fieldY op
  let z := fieldZ op
  if fieldX op = 0 then decodeFields0 y z (fieldP op) (fieldQ op)
  else if fieldX op = 1 then
    if op = 0x76 then some .halt else some (.ld8 (r8 y) (r8 z))
  else if fieldX op = 2 then aluTable[y]?.map (.alu · (r8 z))
  else decodeFields3 y z (fieldP op) (fieldQ op)

/-! ## The encoder -/

/-- The index of an operand in the r8 table (R63). Only `reg r` and (HL) have one; any other operand is refused by
`Instr.wf` and its index here means nothing. -/
def r8Index : Loc8 → Nat
  | .reg .b => 0
  | .reg .c => 1
  | .reg .d => 2
  | .reg .e => 3
  | .reg .h => 4
  | .reg .l => 5
  | .indHL => 6
  | .reg .a | .indBC | .indDE | .indHLInc | .indHLDec | .imm8 | .abs16 | .highImm | .highC => 7

/-- The prefixed code with fields x, y and operand t (R154). -/
def cbCode (x y : Nat) (t : Loc8) : Byte := BitVec.ofNat 8 (x * 64 + y * 8 + r8Index t)

/-- The opcode bytes of a row: one byte, or 0xCB and the code (R61). Operand bytes are no part of the instruction value
(R72); an illegal row and the escape row give their byte. -/
def encode : Instr → List Byte
  | .nop => [0x00]
  | .ld_BC_nn => [0x01]
  | .ld_atBC_A => [0x02]
  | .inc_BC => [0x03]
  | .inc_B => [0x04]
  | .dec_B => [0x05]
  | .ld_B_n => [0x06]
  | .rlca => [0x07]
  | .ld_atNN_SP => [0x08]
  | .add_HL_BC => [0x09]
  | .ld_A_atBC => [0x0A]
  | .dec_BC => [0x0B]
  | .inc_C => [0x0C]
  | .dec_C => [0x0D]
  | .ld_C_n => [0x0E]
  | .rrca => [0x0F]
  | .stop => [0x10]
  | .ld_DE_nn => [0x11]
  | .ld_atDE_A => [0x12]
  | .inc_DE => [0x13]
  | .inc_D => [0x14]
  | .dec_D => [0x15]
  | .ld_D_n => [0x16]
  | .rla => [0x17]
  | .jr_e => [0x18]
  | .add_HL_DE => [0x19]
  | .ld_A_atDE => [0x1A]
  | .dec_DE => [0x1B]
  | .inc_E => [0x1C]
  | .dec_E => [0x1D]
  | .ld_E_n => [0x1E]
  | .rra => [0x1F]
  | .jr_NZ_e => [0x20]
  | .ld_HL_nn => [0x21]
  | .ld_atHLi_A => [0x22]
  | .inc_HL => [0x23]
  | .inc_H => [0x24]
  | .dec_H => [0x25]
  | .ld_H_n => [0x26]
  | .daa => [0x27]
  | .jr_Z_e => [0x28]
  | .add_HL_HL => [0x29]
  | .ld_A_atHLi => [0x2A]
  | .dec_HL => [0x2B]
  | .inc_L => [0x2C]
  | .dec_L => [0x2D]
  | .ld_L_n => [0x2E]
  | .cpl => [0x2F]
  | .jr_NC_e => [0x30]
  | .ld_SP_nn => [0x31]
  | .ld_atHLd_A => [0x32]
  | .inc_SP => [0x33]
  | .inc_atHL => [0x34]
  | .dec_atHL => [0x35]
  | .ld_atHL_n => [0x36]
  | .scf => [0x37]
  | .jr_C_e => [0x38]
  | .add_HL_SP => [0x39]
  | .ld_A_atHLd => [0x3A]
  | .dec_SP => [0x3B]
  | .inc_A => [0x3C]
  | .dec_A => [0x3D]
  | .ld_A_n => [0x3E]
  | .ccf => [0x3F]
  | .ld_B_B => [0x40]
  | .ld_B_C => [0x41]
  | .ld_B_D => [0x42]
  | .ld_B_E => [0x43]
  | .ld_B_H => [0x44]
  | .ld_B_L => [0x45]
  | .ld_B_atHL => [0x46]
  | .ld_B_A => [0x47]
  | .ld_C_B => [0x48]
  | .ld_C_C => [0x49]
  | .ld_C_D => [0x4A]
  | .ld_C_E => [0x4B]
  | .ld_C_H => [0x4C]
  | .ld_C_L => [0x4D]
  | .ld_C_atHL => [0x4E]
  | .ld_C_A => [0x4F]
  | .ld_D_B => [0x50]
  | .ld_D_C => [0x51]
  | .ld_D_D => [0x52]
  | .ld_D_E => [0x53]
  | .ld_D_H => [0x54]
  | .ld_D_L => [0x55]
  | .ld_D_atHL => [0x56]
  | .ld_D_A => [0x57]
  | .ld_E_B => [0x58]
  | .ld_E_C => [0x59]
  | .ld_E_D => [0x5A]
  | .ld_E_E => [0x5B]
  | .ld_E_H => [0x5C]
  | .ld_E_L => [0x5D]
  | .ld_E_atHL => [0x5E]
  | .ld_E_A => [0x5F]
  | .ld_H_B => [0x60]
  | .ld_H_C => [0x61]
  | .ld_H_D => [0x62]
  | .ld_H_E => [0x63]
  | .ld_H_H => [0x64]
  | .ld_H_L => [0x65]
  | .ld_H_atHL => [0x66]
  | .ld_H_A => [0x67]
  | .ld_L_B => [0x68]
  | .ld_L_C => [0x69]
  | .ld_L_D => [0x6A]
  | .ld_L_E => [0x6B]
  | .ld_L_H => [0x6C]
  | .ld_L_L => [0x6D]
  | .ld_L_atHL => [0x6E]
  | .ld_L_A => [0x6F]
  | .ld_atHL_B => [0x70]
  | .ld_atHL_C => [0x71]
  | .ld_atHL_D => [0x72]
  | .ld_atHL_E => [0x73]
  | .ld_atHL_H => [0x74]
  | .ld_atHL_L => [0x75]
  | .halt => [0x76]
  | .ld_atHL_A => [0x77]
  | .ld_A_B => [0x78]
  | .ld_A_C => [0x79]
  | .ld_A_D => [0x7A]
  | .ld_A_E => [0x7B]
  | .ld_A_H => [0x7C]
  | .ld_A_L => [0x7D]
  | .ld_A_atHL => [0x7E]
  | .ld_A_A => [0x7F]
  | .add_A_B => [0x80]
  | .add_A_C => [0x81]
  | .add_A_D => [0x82]
  | .add_A_E => [0x83]
  | .add_A_H => [0x84]
  | .add_A_L => [0x85]
  | .add_A_atHL => [0x86]
  | .add_A_A => [0x87]
  | .adc_A_B => [0x88]
  | .adc_A_C => [0x89]
  | .adc_A_D => [0x8A]
  | .adc_A_E => [0x8B]
  | .adc_A_H => [0x8C]
  | .adc_A_L => [0x8D]
  | .adc_A_atHL => [0x8E]
  | .adc_A_A => [0x8F]
  | .sub_A_B => [0x90]
  | .sub_A_C => [0x91]
  | .sub_A_D => [0x92]
  | .sub_A_E => [0x93]
  | .sub_A_H => [0x94]
  | .sub_A_L => [0x95]
  | .sub_A_atHL => [0x96]
  | .sub_A_A => [0x97]
  | .sbc_A_B => [0x98]
  | .sbc_A_C => [0x99]
  | .sbc_A_D => [0x9A]
  | .sbc_A_E => [0x9B]
  | .sbc_A_H => [0x9C]
  | .sbc_A_L => [0x9D]
  | .sbc_A_atHL => [0x9E]
  | .sbc_A_A => [0x9F]
  | .and_A_B => [0xA0]
  | .and_A_C => [0xA1]
  | .and_A_D => [0xA2]
  | .and_A_E => [0xA3]
  | .and_A_H => [0xA4]
  | .and_A_L => [0xA5]
  | .and_A_atHL => [0xA6]
  | .and_A_A => [0xA7]
  | .xor_A_B => [0xA8]
  | .xor_A_C => [0xA9]
  | .xor_A_D => [0xAA]
  | .xor_A_E => [0xAB]
  | .xor_A_H => [0xAC]
  | .xor_A_L => [0xAD]
  | .xor_A_atHL => [0xAE]
  | .xor_A_A => [0xAF]
  | .or_A_B => [0xB0]
  | .or_A_C => [0xB1]
  | .or_A_D => [0xB2]
  | .or_A_E => [0xB3]
  | .or_A_H => [0xB4]
  | .or_A_L => [0xB5]
  | .or_A_atHL => [0xB6]
  | .or_A_A => [0xB7]
  | .cp_A_B => [0xB8]
  | .cp_A_C => [0xB9]
  | .cp_A_D => [0xBA]
  | .cp_A_E => [0xBB]
  | .cp_A_H => [0xBC]
  | .cp_A_L => [0xBD]
  | .cp_A_atHL => [0xBE]
  | .cp_A_A => [0xBF]
  | .ret_NZ => [0xC0]
  | .pop_BC => [0xC1]
  | .jp_NZ_nn => [0xC2]
  | .jp_nn => [0xC3]
  | .call_NZ_nn => [0xC4]
  | .push_BC => [0xC5]
  | .add_A_n => [0xC6]
  | .rst_00h => [0xC7]
  | .ret_Z => [0xC8]
  | .ret => [0xC9]
  | .jp_Z_nn => [0xCA]
  | .call_Z_nn => [0xCC]
  | .call_nn => [0xCD]
  | .adc_A_n => [0xCE]
  | .rst_08h => [0xCF]
  | .ret_NC => [0xD0]
  | .pop_DE => [0xD1]
  | .jp_NC_nn => [0xD2]
  | .call_NC_nn => [0xD4]
  | .push_DE => [0xD5]
  | .sub_A_n => [0xD6]
  | .rst_10h => [0xD7]
  | .ret_C => [0xD8]
  | .reti => [0xD9]
  | .jp_C_nn => [0xDA]
  | .call_C_nn => [0xDC]
  | .sbc_A_n => [0xDE]
  | .rst_18h => [0xDF]
  | .ldh_atN_A => [0xE0]
  | .pop_HL => [0xE1]
  | .ld_atC_A => [0xE2]
  | .push_HL => [0xE5]
  | .and_A_n => [0xE6]
  | .rst_20h => [0xE7]
  | .add_SP_e => [0xE8]
  | .jp_HL => [0xE9]
  | .ld_atNN_A => [0xEA]
  | .xor_A_n => [0xEE]
  | .rst_28h => [0xEF]
  | .ldh_A_atN => [0xF0]
  | .pop_AF => [0xF1]
  | .ld_A_atC => [0xF2]
  | .di => [0xF3]
  | .push_AF => [0xF5]
  | .or_A_n => [0xF6]
  | .rst_30h => [0xF7]
  | .ld_HL_SPe => [0xF8]
  | .ld_SP_HL => [0xF9]
  | .ld_A_atNN => [0xFA]
  | .ei => [0xFB]
  | .cp_A_n => [0xFE]
  | .rst_38h => [0xFF]
  | .illegal code => [code]
  | .prefixCb => [0xCB]
  | .rlc t => [0xCB, cbCode 0 0 t]
  | .rrc t => [0xCB, cbCode 0 1 t]
  | .rl t => [0xCB, cbCode 0 2 t]
  | .rr t => [0xCB, cbCode 0 3 t]
  | .sla t => [0xCB, cbCode 0 4 t]
  | .sra t => [0xCB, cbCode 0 5 t]
  | .swap t => [0xCB, cbCode 0 6 t]
  | .srl t => [0xCB, cbCode 0 7 t]
  | .bit b t => [0xCB, cbCode 1 b.val t]
  | .res b t => [0xCB, cbCode 2 b.val t]
  | .set b t => [0xCB, cbCode 3 b.val t]

/-! ## Lengths (R66) -/

/-- P_STOP_LEN as a number (R9). -/
def StopLen.bytes : StopLen → Nat
  | .one => 1
  | .two => 2

/-- How many operand bytes a byte operand takes (R61, R66). -/
def Loc8.operandBytes : Loc8 → Nat
  | .imm8 | .highImm => 1
  | .abs16 => 2
  | .reg _ | .indBC | .indDE | .indHL | .indHLInc | .indHLDec | .highC => 0

/-- The length of a decoded value in bytes (R66). -/
def Op.len (stop : StopLen) : Op → Nat
  | .ld8 dst src => 1 + dst.operandBytes + src.operandBytes
  | .alu _ src => 1 + src.operandBytes
  | .inc8 t | .dec8 t => 1 + t.operandBytes
  | .ld16 (.imm _) | .ld16 .nnSP => 3
  | .ld16 .spHL => 1
  | .ld16 .hlSPe | .addSp => 2
  | .jp _ .imm16 => 3
  | .jp _ .rel8 => 2
  | .jp _ .hl => 1
  | .call _ => 3
  | .stop => stop.bytes
  | .cb _ _ => 2
  | .push _ | .pop _ | .daa | .cpl | .scf | .ccf | .rlca | .rrca | .rla | .rra
  | .inc16 _ | .dec16 _ | .add16 _ | .ret _ | .rst _ | .nop | .halt | .di | .ei => 1

/-! ## The host's numbering of an instruction's bits -/

/-- The bytes of an instruction whose first `nbits` bits are `w`, the first byte least significant, every later bit 0, up
to the longest instruction (3 bytes, R61). -/
def tableBytes (nbits w : Nat) : List Byte :=
  let v := w % 2 ^ nbits
  [BitVec.ofNat 8 v, BitVec.ofNat 8 (v / 256), BitVec.ofNat 8 (v / 65536)]

/-- The instruction the decoder reads from those bytes, under the FULL prefixed table (so that the prefixed rows have
one). None for the eleven illegal bytes, which decode to no instruction (R76). A prefixed row's instruction is 0xCB and
then the code, so its bits are 0xCB + 256 * code (assumption log 6). -/
def decodeTableWord (nbits w : Nat) : Option Instr :=
  (decodeBytes .full (tableBytes nbits w)).toOption

end Sys2Proof
end

