-- ==== Sys2Proof/Machine/Params.lean ====
section
/-! DEFINITION. The values of the parameters: the defaults of 00_scope.md section 4, the size of the store, and P_CYCLE_TABLE
with its reference value (70_reset_and_hazards.md R186). Decisions here may be mended; the parameter types are in
Sys2Proof/Config.lean. -/

namespace Sys2Proof.Machine

/-- The defaults of 00_scope.md section 4 (R3 to R9). P_CYCLE_TABLE is OPEN there, so it is the free table. -/
def defaultConfig : Config where
  memSize := .full
  resetRun := .running
  resetRegs := .zero
  prefixTable := .stub
  cycles := .free
  haltCycles := .table
  stopLen := .two

/-- P_MEM_SIZE as a number of cells (R3). -/
def memBytes : MemSize → Nat
  | .full => 0x10000
  | .short => 0xFFFF

/-- The non-prefixed reference cycle table, row = high nibble (R186); 0 stands for the entries marked with a dash, which
are never looked up. -/
def referenceRows : List (List Nat) :=
  [[4, 12, 8, 8, 4, 4, 8, 4, 20, 8, 8, 8, 4, 4, 8, 4],
   [4, 12, 8, 8, 4, 4, 8, 4, 12, 8, 8, 8, 4, 4, 8, 4],
   [8, 12, 8, 8, 4, 4, 8, 4, 8, 8, 8, 8, 4, 4, 8, 4],
   [8, 12, 8, 8, 12, 12, 12, 4, 8, 8, 8, 8, 4, 4, 8, 4],
   [4, 4, 4, 4, 4, 4, 8, 4, 4, 4, 4, 4, 4, 4, 8, 4],
   [4, 4, 4, 4, 4, 4, 8, 4, 4, 4, 4, 4, 4, 4, 8, 4],
   [4, 4, 4, 4, 4, 4, 8, 4, 4, 4, 4, 4, 4, 4, 8, 4],
   [8, 8, 8, 8, 8, 8, 4, 8, 4, 4, 4, 4, 4, 4, 8, 4],
   [4, 4, 4, 4, 4, 4, 8, 4, 4, 4, 4, 4, 4, 4, 8, 4],
   [4, 4, 4, 4, 4, 4, 8, 4, 4, 4, 4, 4, 4, 4, 8, 4],
   [4, 4, 4, 4, 4, 4, 8, 4, 4, 4, 4, 4, 4, 4, 8, 4],
   [4, 4, 4, 4, 4, 4, 8, 4, 4, 4, 4, 4, 4, 4, 8, 4],
   [8, 12, 12, 16, 12, 16, 8, 16, 8, 16, 12, 0, 12, 24, 8, 16],
   [8, 12, 12, 0, 12, 16, 8, 16, 8, 16, 12, 0, 12, 0, 8, 16],
   [12, 12, 8, 0, 0, 16, 8, 16, 16, 4, 16, 0, 0, 0, 8, 16],
   [12, 12, 8, 4, 0, 16, 8, 16, 12, 8, 16, 4, 0, 0, 8, 16]]

/-- The reference cycle table (R186): prefixed codes take 8, or 12 for BIT b,(HL), or 16 for any other (HL) form. The
dash entries keep the free value (U12). -/
def referenceCycles (code : Byte) (prefixed : Bool) : Byte :=
  if prefixed then
    if fieldZ code ≠ 6 then 8 else if fieldX code = 1 then 12 else 16
  else
    match (referenceRows.getD (code.toNat / 16) []).getD (code.toNat % 16) 0 with
    | 0 => Config.freeCycles code prefixed
    | k => BitVec.ofNat 8 k

/-- P_CYCLE_TABLE (R7): total on (opcode byte, prefixed flag), with (0x00, false) = 4 in every value of it. -/
def cycleTable (t : CycleTable) (code : Byte) (prefixed : Bool) : Byte :=
  match t with
  | .reference => referenceCycles code prefixed
  | .free => if code = 0x00 ∧ prefixed = false then 4 else Config.freeCycles code prefixed

/-- The frame budget (R10, R188), with integer division. -/
def frameBudget (f : FrameConfig) : Nat := f.clockHz * f.frameUs / 1000000

end Sys2Proof.Machine
end

