-- ==== Sys2Proof/Machine/State.lean ====
section
/-! DEFINITION. Everything the spec gives the machine (10_state.md), as plain data; the fatal conditions (60_exceptions.md
R166); the refusals; the state after reset (R35 to R40, 70_reset_and_hazards.md R182). -/

namespace Sys2Proof.Machine

/-- The four flags (R19): Z, N, H, C. -/
inductive FlagName where
  | z | n | h | c
  deriving DecidableEq, Repr

/-- The names FATAL_UNDEF can record (R170): the seven registers and the four flags. -/
inductive RegName where
  | reg (r : Reg8)
  | flag (f : FlagName)
  deriving DecidableEq, Repr

/-- The flags value F: four independent booleans (R19). Their 8-bit form is `encodeFlags` (R20). -/
structure Flags where
  z : Bool
  n : Bool
  h : Bool
  c : Bool
  deriving DecidableEq, Repr

/-- Which registers and flags hold no value: never written since a reset with P_RESET_REGS = UNDEFINED (R5, R37, R170).
All false under ZERO, where every register holds a value (assumption log 7). -/
structure NoValue where
  a : Bool
  b : Bool
  c : Bool
  d : Bool
  e : Bool
  h : Bool
  l : Bool
  fz : Bool
  fn : Bool
  fh : Bool
  fc : Bool
  deriving DecidableEq, Repr

/-- The kinds of memory access FATAL_MEM records (R169, D37). -/
inductive AccessKind where
  | fetch
  | read
  | write
  deriving DecidableEq, Repr

/-- The fatal conditions (R166). Each ends the run and carries its record and no machine state (R171). All four are SAFE:
the spec itself ends the run there. The outcome is the fault mark (assumption log 12). -/
inductive Fault where
  /-- FATAL_DECODE, code 1 (R167): raised by `step` (and by the rows that are no instruction) when decode gives none;
  records the code byte and the prefixed flag. Safe. -/
  | decode (code : Byte) (prefixed : Bool)
  /-- FATAL_OPERAND, code 2 (R168): raised by `execute` on an operand combination R73 does not admit, which no decoded
  instruction carries; records the decoded value. Safe. -/
  | operand (i : Op)
  /-- FATAL_MEM, code 3 (R169): raised by a memory access to an address the store does not cover, which is 0xFFFF under
  P_MEM_SIZE = 0xFFFF; records the address and the kind of access. Safe. -/
  | mem (addr : Word) (kind : AccessKind)
  /-- FATAL_UNDEF, code 4 (R170, R5, U4): the spec's own stop, raised by `readReg` and `readFlag` for a register or flag
  that holds no value, which exists under P_RESET_REGS = UNDEFINED only; records the name. Under ZERO, the default, a
  register that nothing has written reads as 0x00 and raises nothing (R37). Safe. -/
  | undef (name : RegName)
  deriving DecidableEq, Repr

/-- The numeric code of a fatal condition (R166, D27). -/
def Fault.code : Fault → Nat
  | .decode _ _ => 1
  | .operand _ => 2
  | .mem _ _ => 3
  | .undef _ => 4

/-- Reasons for having no meaning. None is used: every row of the opcode table has its meaning. -/
inductive Refusal where
  /-- An instruction without a meaning yet; raised by no arm of `exec`. Safe. -/
  | notModelled (mnemonic : String)
  deriving DecidableEq, Repr

/-- The machine state (10_state.md). -/
structure State where
  /-- The general registers (R18). -/
  a : Byte
  b : Byte
  c : Byte
  d : Byte
  e : Byte
  h : Byte
  l : Byte
  /-- The flags value (R19). -/
  f : Flags
  /-- The stack pointer (R25). -/
  sp : Word
  /-- The program counter (R26). -/
  pc : Word
  /-- The interrupt-enable flag (R27). -/
  ime : Bool
  /-- Set by HALT (R28). -/
  halted : Bool
  /-- Set by STOP (R29). -/
  stopped : Bool
  /-- The memory (R31). -/
  mem : Memory
  /-- The registers and flags that hold no value (R37, R170). -/
  noValue : NoValue
  /-- The parameters (R3 to R9), which no step writes (assumption log 1). -/
  cfg : Config
  /-- The model's own: the `extra_cycles` result of the last execute (R82; assumption log 3). -/
  lastExtra : Byte
  /-- The model's own: the cycles the last step returned (R85, R86; assumption log 3). -/
  lastCycles : Nat
  deriving DecidableEq, Repr

/-- The marks P_RESET_REGS leaves (R37): none under ZERO, all under UNDEFINED. -/
def NoValue.atReset : ResetRegs → NoValue
  | .zero => ⟨false, false, false, false, false, false, false, false, false, false, false⟩
  | .undefined => ⟨true, true, true, true, true, true, true, true, true, true, true⟩

/-- Whether P_RESET_RUN starts the core halted and stopped (R39). -/
def resetHalted : ResetRun → Bool
  | .running => false
  | .haltedStopped => true

/-- The state after reset under given parameters, before the loader writes the image (R35 to R40, R182). Under UNDEFINED
the bits 0x00 behind a mark are never readable (R170). -/
def State.resetWith (cfg : Config) : State where
  a := 0x00
  b := 0x00
  c := 0x00
  d := 0x00
  e := 0x00
  h := 0x00
  l := 0x00
  f := ⟨false, false, false, false⟩
  sp := 0xFFFF
  pc := 0x0000
  ime := false
  halted := resetHalted cfg.resetRun
  stopped := resetHalted cfg.resetRun
  mem := []
  noValue := NoValue.atReset cfg.resetRegs
  cfg := cfg
  lastExtra := 0
  lastCycles := 0

/-- The state after reset with the default parameters (00_scope.md section 4). -/
def State.reset : State := State.resetWith defaultConfig

end Sys2Proof.Machine
end

