-- ==== Sys2Proof/Machine/Ops.lean ====
section
/-! DEFINITION. The named operations over registers and memory: register, flag and pair access (10_state.md R18 to R26),
the byte and word interface of memory (20_memory.md R41 to R47), immediates (30_encoding.md R67 to R69), the stack
primitives (40_load.md R112, R113), the commit of a result (R82, R85), and `raise`, the one way a fatal condition is taken
(60_exceptions.md R166, R171). CORE has no trap entry and no privilege (R174, R176), so `raise` is the whole of taking an
exception; the one return from interrupt, RETI, is an ordinary return (R175). -/

namespace Sys2Proof.Machine

/-- `raise Fatal(kind, info)` (R16): the run ends with this record and no machine state (R171). -/
def raise {α : Type} (f : Fault) : Except Fault α := .error f

/-! ## "Holds no value" marks (R170) -/

/-- Whether a register or flag holds no value. -/
def NoValue.get (m : NoValue) : RegName → Bool
  | .reg .a => m.a
  | .reg .b => m.b
  | .reg .c => m.c
  | .reg .d => m.d
  | .reg .e => m.e
  | .reg .h => m.h
  | .reg .l => m.l
  | .flag .z => m.fz
  | .flag .n => m.fn
  | .flag .h => m.fh
  | .flag .c => m.fc

/-- Whether a register or flag holds a value, so that reading it raises nothing (R170). -/
def State.holds (s : State) (n : RegName) : Bool := !s.noValue.get n

/-! ## General registers (R18) -/

/-- The contents of a general register (R18). -/
def State.reg (s : State) : Reg8 → Byte
  | .a => s.a
  | .b => s.b
  | .c => s.c
  | .d => s.d
  | .e => s.e
  | .h => s.h
  | .l => s.l

/-- `x[r] <- v` (R18): the register takes the value and from then on holds one (R170). -/
def State.setReg (s : State) (r : Reg8) (v : Byte) : State :=
  match r with
  | .a => { s with a := v, noValue := { s.noValue with a := false } }
  | .b => { s with b := v, noValue := { s.noValue with b := false } }
  | .c => { s with c := v, noValue := { s.noValue with c := false } }
  | .d => { s with d := v, noValue := { s.noValue with d := false } }
  | .e => { s with e := v, noValue := { s.noValue with e := false } }
  | .h => { s with h := v, noValue := { s.noValue with h := false } }
  | .l => { s with l := v, noValue := { s.noValue with l := false } }

/-- `x[r]`, or FATAL_UNDEF when the register holds no value (R170). -/
def readReg (r : Reg8) (s : State) : Except Fault Byte :=
  if s.holds (.reg r) then .ok (s.reg r) else raise (.undef (.reg r))

/-! ## Flags (R19, R20) -/

/-- One flag (R19). -/
def State.flag (s : State) : FlagName → Bool
  | .z => s.f.z
  | .n => s.f.n
  | .h => s.f.h
  | .c => s.f.c

/-- `F.X`, or FATAL_UNDEF when the flag holds no value (R170). -/
def readFlag (f : FlagName) (s : State) : Except Fault Bool :=
  if s.holds (.flag f) then .ok (s.flag f) else raise (.undef (.flag f))

/-- A rule's "Flags" line: for each flag the value written, or `none` for '-', not touched (R17, U1). -/
structure FlagWrite where
  z : Option Bool
  n : Option Bool
  h : Option Bool
  c : Option Bool
  deriving DecidableEq, Repr

/-- Write the flags of a rule: a written flag takes its value and from then on holds one; a flag left '-' keeps its value,
and keeps having none if it had none (R19, R170, D36). -/
def State.setFlags (s : State) (w : FlagWrite) : State :=
  { s with
    f := { z := w.z.getD s.f.z, n := w.n.getD s.f.n, h := w.h.getD s.f.h, c := w.c.getD s.f.c }
    noValue := { s.noValue with
      fz := s.noValue.fz && w.z.isNone
      fn := s.noValue.fn && w.n.isNone
      fh := s.noValue.fh && w.h.isNone
      fc := s.noValue.fc && w.c.isNone } }

/-- `encode(F)` (R20): Z, N, H, C in bits 7 to 4, bits 3 to 0 zero. -/
def encodeFlags (f : Flags) : Byte :=
  BitVec.ofNat 8 (b2n f.z * 0x80 + b2n f.n * 0x40 + b2n f.h * 0x20 + b2n f.c * 0x10)

/-- `decode(b)` (R20): bits 7 to 4; bits 3 to 0 are ignored. -/
def decodeFlags (b : Byte) : Flags where
  z := b.getLsbD 7
  n := b.getLsbD 6
  h := b.getLsbD 5
  c := b.getLsbD 4

/-! ## Register pairs and SP (R21 to R25) -/

/-- The 16-bit contents of an rp pair: the first-named register is the high byte (R21 to R23); SP is its own (R25). -/
def State.pair (s : State) : Reg16 → Word
  | .bc => join s.b s.c
  | .de => join s.d s.e
  | .hl => join s.h s.l
  | .sp => s.sp

/-- Write an rp pair: the halves of a register pair, or SP (R21 to R23, R25). -/
def State.setPair (s : State) (r : Reg16) (w : Word) : State :=
  match r with
  | .bc => (s.setReg .b (hi8 w)).setReg .c (lo8 w)
  | .de => (s.setReg .d (hi8 w)).setReg .e (lo8 w)
  | .hl => (s.setReg .h (hi8 w)).setReg .l (lo8 w)
  | .sp => { s with sp := w }

/-- Read two registers as a 16-bit view, high half first (R170: a read of a view reads both halves). -/
def readHalves (hi lo : Reg8) (s : State) : Except Fault Word := do
  let h ← readReg hi s
  let l ← readReg lo s
  return join h l

/-- `x[rr]` for an rp pair; SP always holds a value (R170). -/
def readPair (r : Reg16) (s : State) : Except Fault Word :=
  match r with
  | .bc => readHalves .b .c s
  | .de => readHalves .d .e s
  | .hl => readHalves .h .l s
  | .sp => .ok s.sp

/-- The 16-bit contents of an rp2 pair; AF is `x[A] ++ encode(F)` (R24). -/
def State.stk (s : State) : StkReg → Word
  | .bc => s.pair .bc
  | .de => s.pair .de
  | .hl => s.pair .hl
  | .af => join s.a (encodeFlags s.f)

/-- Write an rp2 pair; writing AF writes A and all four flags, and loses the low nibble (R24). -/
def State.setStk (s : State) (r : StkReg) (w : Word) : State :=
  match r with
  | .bc => s.setPair .bc w
  | .de => s.setPair .de w
  | .hl => s.setPair .hl w
  | .af =>
    let g := decodeFlags (lo8 w)
    (s.setReg .a (hi8 w)).setFlags ⟨some g.z, some g.n, some g.h, some g.c⟩

/-- `x[rr]` for an rp2 pair. A read of AF reads A and then all four flags, in the order of encode (R170, R172). -/
def readStk (r : StkReg) (s : State) : Except Fault Word :=
  match r with
  | .bc => readPair .bc s
  | .de => readPair .de s
  | .hl => readPair .hl s
  | .af => do
    let a ← readReg .a s
    let z ← readFlag .z s
    let n ← readFlag .n s
    let h ← readFlag .h s
    let c ← readFlag .c s
    return join a (encodeFlags ⟨z, n, h, c⟩)

/-! ## Memory (R41 to R45) -/

/-- Whether the store has a cell at the address (R31, R43). -/
def State.mapped (s : State) (a : Word) : Bool := decide (a.toNat < memBytes s.cfg.memSize)

/-- The byte a cell holds: the model's read of one byte (R41). -/
def State.byteAt (s : State) (a : Word) : Byte := s.mem.read a.toNat

/-- Set one cell (R42). -/
def State.setByte (s : State) (a : Word) (v : Byte) : State := { s with mem := s.mem.write a.toNat v }

/-- The 16-bit value at two cells, low byte at the lower address, the second address wrapping (R44, R49). -/
def State.wordAt (s : State) (a : Word) : Word := join (s.byteAt (a + 1)) (s.byteAt a)

/-- `MemRead(addr, 1)` (R41), or FATAL_MEM where there is no cell (R43, R169). -/
def memRead (kind : AccessKind) (a : Word) (s : State) : Except Fault Byte :=
  if s.mapped a then .ok (s.byteAt a) else raise (.mem a kind)

/-- `MemWrite(addr, 1, v)` (R42), or FATAL_MEM where there is no cell (R43, R169). -/
def memWrite (a : Word) (v : Byte) (s : State) : Except Fault State :=
  if s.mapped a then .ok (s.setByte a v) else raise (.mem a .write)

/-- `MemRead16(addr)` (R44): low address first, little-endian. -/
def memRead16 (kind : AccessKind) (a : Word) (s : State) : Except Fault Word := do
  let lo ← memRead kind a s
  let hi ← memRead kind (a + 1) s
  return join hi lo

/-- `MemWrite16(addr, v)` (R45): the low byte, then the high byte. -/
def memWrite16 (a : Word) (v : Word) (s : State) : Except Fault State := do
  let s ← memWrite a (lo8 v) s
  memWrite (a + 1) (hi8 v) s

/-! ## Immediates (R67 to R69); R169 counts them as fetches -/

/-- n, or the raw byte of e, at pc+1 (R67, R68). -/
def fetchImm8 (s : State) : Except Fault Byte := memRead .fetch (s.pc + 1) s

/-- nn at pc+1 and pc+2 (R69). -/
def fetchImm16 (s : State) : Except Fault Word := memRead16 .fetch (s.pc + 1) s

/-! ## Stack primitives (R112, R113) -/

/-- `push8(b)` (R112): SP decrements, then the byte is written at SP. -/
def push8 (b : Byte) (s : State) : Except Fault State :=
  memWrite (s.sp - 1) b { s with sp := s.sp - 1 }

/-- `push16(v)` (R112): high byte first. -/
def push16 (v : Word) (s : State) : Except Fault State := do
  let s ← push8 (hi8 v) s
  push8 (lo8 v) s

/-- `pop8()` (R113): the byte at SP, then SP increments. -/
def pop8 (s : State) : Except Fault (Byte × State) := do
  let b ← memRead .read s.sp s
  return (b, { s with sp := s.sp + 1 })

/-- `pop16()` (R113): low byte first. -/
def pop16 (s : State) : Except Fault (Word × State) := do
  let (lo, s) ← pop8 s
  let (hi, s) ← pop8 s
  return (join hi lo, s)

/-! ## Results (R82, R85) -/

/-- What the arm of an instruction gives: the state it leaves, the next PC and the extra cycles (R82). -/
structure Result where
  state : State
  nextPc : Word
  extra : Byte
  deriving DecidableEq, Repr

/-- `pc <- next_pc` (R85), keeping the extra cycles that execute returned (R82) for the driver's count. -/
def State.commit (s : State) (nextPc : Word) (extra : Byte) : State :=
  { s with pc := nextPc, lastExtra := extra }

/-- Neither halted nor stopped (R30). -/
def State.running (s : State) : Bool := !s.halted && !s.stopped

/-- The sequential next PC, `wrap16(pc + len)` (R26, R66, R83). -/
def State.seqPc (s : State) (i : Op) : Word := s.pc + BitVec.ofNat 16 (i.len s.cfg.stopLen)

end Sys2Proof.Machine
end

