-- ==== Sys2Proof/Machine/Flags.lean ====
section
/-! DEFINITION. Every result and flag computation of 41_alu8.md (R117 to R134), 42_alu16.md (R137, R138), 40_load.md R111
and 45_prefixed.md (R155 to R163), as pure functions. Results are reduced mod 2^8 or 2^16; carries are comparisons of
exact sums (R13). -/

namespace Sys2Proof.Machine

/-- An 8-bit result and the flags written with it. -/
structure Alu8 where
  result : Byte
  flags : FlagWrite
  deriving DecidableEq, Repr

/-- ADD (R117) with carry-in 0, ADC (R118) with carry-in C: flags * 0 * *. -/
def addWithCarry (a v : Byte) (carry : Bool) : Alu8 :=
  let r := BitVec.ofNat 8 (a.toNat + v.toNat + b2n carry)
  { result := r
    flags := {
      z := some (r == 0)
      n := some false
      h := some (decide (a.toNat % 16 + v.toNat % 16 + b2n carry > 0x0F))
      c := some (decide (a.toNat + v.toNat + b2n carry > 0xFF)) } }

/-- SUB and CP (R119, R124) with borrow-in 0, SBC (R120) with borrow-in C: flags * 1 * *. -/
def subWithBorrow (a v : Byte) (borrow : Bool) : Alu8 :=
  let r := a - v - b2b borrow
  { result := r
    flags := {
      z := some (r == 0)
      n := some true
      h := some (decide (a.toNat % 16 < v.toNat % 16 + b2n borrow))
      c := some (decide (a.toNat < v.toNat + b2n borrow)) } }

/-- AND (R121: H set), XOR and OR (R122, R123: H clear): flags * 0 h 0. -/
def logicResult (r : Byte) (half : Bool) : Alu8 :=
  { result := r, flags := { z := some (r == 0), n := some false, h := some half, c := some false } }

/-- The eight two-operand operations on A and v (R117 to R124). CP gives SUB's flags; its result is discarded by
the arm. -/
def alu8 (op : AluOp) (a v : Byte) (carry : Bool) : Alu8 :=
  match op with
  | .add => addWithCarry a v false
  | .adc => addWithCarry a v carry
  | .sub => subWithBorrow a v false
  | .sbc => subWithBorrow a v carry
  | .and => logicResult (a &&& v) true
  | .xor => logicResult (a ^^^ v) false
  | .or => logicResult (a ||| v) false
  | .cp => subWithBorrow a v false

/-- ADC and SBC read the carry flag (R118, R120); the others read no flag. -/
def readsCarry : AluOp → Bool
  | .adc | .sbc => true
  | .add | .sub | .and | .xor | .or | .cp => false

/-- INC (R125): flags * 0 * -. -/
def inc8Result (v : Byte) : Alu8 :=
  { result := v + 1
    flags := { z := some (v + 1 == 0), n := some false, h := some (v &&& 0x0F == 0x0F), c := none } }

/-- DEC (R126): flags * 1 * -. -/
def dec8Result (v : Byte) : Alu8 :=
  { result := v - 1
    flags := { z := some (v - 1 == 0), n := some true, h := some (v &&& 0x0F == 0x00), c := none } }

/-- DAA's corrected accumulator and carry, from A, N, H and C (R127, D14). -/
def daaAdjust (a : Byte) (n h c : Bool) : Byte × Bool :=
  if n = false then
    let (a1, c1) := if c || decide (a.toNat > 0x99) then (a + 0x60, true) else (a, c)
    (if h || decide (a1.toNat % 16 > 0x09) then a1 + 0x06 else a1, c1)
  else
    let a1 := if c then a - 0x60 else a
    (if h then a1 - 0x06 else a1, c)

/-- DAA (R127): flags * - 0 *. -/
def daaResult (a : Byte) (n h c : Bool) : Alu8 :=
  let out := daaAdjust a n h c
  { result := out.1, flags := { z := some (out.1 == 0), n := none, h := some false, c := some out.2 } }

/-- CPL (R128): flags - 1 1 -. -/
def cplResult (a : Byte) : Alu8 :=
  { result := a ^^^ 0xFF, flags := { z := none, n := some true, h := some true, c := none } }

/-- SCF (R129): flags - 0 0 1. -/
def scfFlags : FlagWrite := { z := none, n := some false, h := some false, c := some true }

/-- CCF (R130): flags - 0 0 *. -/
def ccfFlags (c : Bool) : FlagWrite := { z := none, n := some false, h := some false, c := some !c }

/-! ## Rotates and shifts (R131 to R134, R155 to R162): the byte and the bit shifted out -/

/-- Rotate left (R131, R155). -/
def rotLeft (v : Byte) : Byte × Bool := ((v <<< 1) ||| b2b (v.getLsbD 7), v.getLsbD 7)

/-- Rotate right (R132, R156). -/
def rotRight (v : Byte) : Byte × Bool := ((v >>> 1) ||| (b2b (v.getLsbD 0) <<< 7), v.getLsbD 0)

/-- Rotate left through the carry (R133, R157). -/
def rotLeftCarry (v : Byte) (c : Bool) : Byte × Bool := ((v <<< 1) ||| b2b c, v.getLsbD 7)

/-- Rotate right through the carry (R134, R158). -/
def rotRightCarry (v : Byte) (c : Bool) : Byte × Bool := ((v >>> 1) ||| (b2b c <<< 7), v.getLsbD 0)

/-- Shift left (R159). -/
def shiftLeft (v : Byte) : Byte × Bool := (v <<< 1, v.getLsbD 7)

/-- Arithmetic shift right: bit 7 is kept (R160). -/
def shiftRightArith (v : Byte) : Byte × Bool := ((v >>> 1) ||| (v &&& 0x80), v.getLsbD 0)

/-- Exchange the nibbles; nothing is shifted out (R161). -/
def swapNibbles (v : Byte) : Byte × Bool := ((v <<< 4) ||| (v >>> 4), false)

/-- Logical shift right (R162). -/
def shiftRight (v : Byte) : Byte × Bool := (v >>> 1, v.getLsbD 0)

/-- RLCA, RRCA, RLA, RRA (R131 to R134, D12): flags 0 0 0 *; Z is cleared whatever the result. -/
def accRotate (out : Byte × Bool) : Alu8 :=
  { result := out.1, flags := { z := some false, n := some false, h := some false, c := some out.2 } }

/-- The prefixed rotates, shifts and SWAP (R155 to R162): flags * 0 0 *, with Z from the result. -/
def cbRotate (out : Byte × Bool) : Alu8 :=
  { result := out.1, flags := { z := some (out.1 == 0), n := some false, h := some false, c := some out.2 } }

/-- BIT b (R163): flags * 0 1 -. -/
def bitFlags (b : Fin 8) (v : Byte) : FlagWrite :=
  { z := some (!v.getLsbD b.val), n := some false, h := some true, c := none }

/-- RES b (R164): `v AND (0xFF - 2^b)`. -/
def resBit (b : Fin 8) (v : Byte) : Byte := v &&& BitVec.ofNat 8 (0xFF - 2 ^ b.val)

/-- SET b (R165): `v OR 2^b`. -/
def setBit (b : Fin 8) (v : Byte) : Byte := v ||| BitVec.ofNat 8 (2 ^ b.val)

/-! ## 16-bit (R111, R137, R138) -/

/-- A 16-bit result and the flags written with it. -/
structure Alu16 where
  result : Word
  flags : FlagWrite
  deriving DecidableEq, Repr

/-- ADD HL,rr (R137): flags - 0 * *, the half-carry out of bit 11. -/
def add16Result (v1 v2 : Word) : Alu16 :=
  { result := v1 + v2
    flags := {
      z := none
      n := some false
      h := some (decide (v1.toNat % 0x1000 + v2.toNat % 0x1000 > 0x0FFF))
      c := some (decide (v1.toNat + v2.toNat > 0xFFFF)) } }

/-- SP + e for LD HL,SP+e and ADD SP,e (R111, R138, D13): the offset is sign-extended; flags 0 0 * *, H and C from the
unsigned add of the low byte of SP and the raw byte. -/
def spOffset (sp : Word) (u : Byte) : Alu16 :=
  { result := sp + sext16 u
    flags := {
      z := some false
      n := some false
      h := some (decide (sp.toNat % 16 + u.toNat % 16 > 0x0F))
      c := some (decide (sp.toNat % 256 + u.toNat > 0xFF)) } }

end Sys2Proof.Machine
end

