-- ==== Sys2Proof/Machine/Operands.lean ====
section
/-! DEFINITION. Operand resolution (30_encoding.md R80, R81) and the conditions (43_control.md R139). -/

namespace Sys2Proof.Machine

/-- Where a byte operand lies: in a register, in memory at an address, or nowhere that can be written (n). -/
inductive Place where
  | reg (r : Reg8)
  | mem (a : Word)
  | immediate
  deriving DecidableEq, Repr

/-- Form the place of an operand: the address registers and address immediates it names are read here, in the order of
R80 and R81 and before the memory at the address (R172). -/
def locPlace (t : Loc8) (s : State) : Except Fault Place :=
  match t with
  | .reg r => .ok (.reg r)
  | .indBC => do return .mem (← readPair .bc s)
  | .indDE => do return .mem (← readPair .de s)
  | .indHL | .indHLInc | .indHLDec => do return .mem (← readPair .hl s)
  | .imm8 => .ok .immediate
  | .abs16 => do return .mem (← fetchImm16 s)
  | .highImm => do return .mem (highPage (← fetchImm8 s))
  | .highC => do return .mem (highPage (← readReg .c s))

/-- HL after the access: incremented for (HL+), decremented for (HL-), both wrapping; no other form changes it (R80, R81,
D33). -/
def locAfter (t : Loc8) (s : State) : State :=
  match t with
  | .indHLInc => s.setPair .hl (s.pair .hl + 1)
  | .indHLDec => s.setPair .hl (s.pair .hl - 1)
  | .reg _ | .indBC | .indDE | .indHL | .imm8 | .abs16 | .highImm | .highC => s

/-- Read a formed place: the register, the memory byte, or n at pc+1. -/
def readPlace (p : Place) (s : State) : Except Fault Byte :=
  match p with
  | .reg r => readReg r s
  | .mem a => memRead .read a s
  | .immediate => fetchImm8 s

/-- `readLoc(l)` (R80): the byte, and the state with HL changed for (HL+) and (HL-). -/
def readLoc (t : Loc8) (s : State) : Except Fault (Byte × State) := do
  let p ← locPlace t s
  let v ← readPlace p s
  return (v, locAfter t s)

/-- `writeLoc(l, v)` (R81). `i` is the instruction, for the record of FATAL_OPERAND: no admitted combination writes n. -/
def writeLoc (i : Op) (t : Loc8) (v : Byte) (s : State) : Except Fault State := do
  match ← locPlace t s with
  | .reg r => return s.setReg r v
  | .mem a => return locAfter t (← memWrite a v s)
  | .immediate => raise (.operand i)

/-- The pseudocode of a store, `MemWrite(address, 1, x[s])`, forms the destination's address before it reads the source
register (R92, R96, R97, R100, R101, R103, R105, R107); LD (HL),n reads n first (R93). So a store from a register
forms its place here, for the faults that may raise; it changes nothing (DEDUCED, assumption log 8). -/
def formStoreAddress (dst src : Loc8) (s : State) : Except Fault Unit :=
  match src with
  | .reg _ => do
    let _ ← locPlace dst s
    return ()
  | .imm8 | .indBC | .indDE | .indHL | .indHLInc | .indHLDec | .abs16 | .highImm | .highC => .ok ()

/-- Evaluate a condition (R139): the answer, and the state with ime set when the condition is ALWAYS_IE. -/
def evalCond (cc : Cond) (s : State) : Except Fault (Bool × State) :=
  match cc with
  | .nz => do return (!(← readFlag .z s), s)
  | .z => do return (← readFlag .z s, s)
  | .nc => do return (!(← readFlag .c s), s)
  | .c => do return (← readFlag .c s, s)
  | .always => .ok (true, s)
  | .alwaysIe => .ok (true, { s with ime := true })

/-- The penalty of a taken JP, JR or JP HL (R140). -/
def jpPenalty : Byte := 4

/-- The penalty of a taken CALL, RET or RETI (R140). -/
def callPenalty : Byte := 12

end Sys2Proof.Machine
end

