-- ==== Sys2Proof/Machine/ArmAlu.lean ====
section
/-! DEFINITION. The arms of the 8-bit and 16-bit arithmetic rules (41_alu8.md R116 to R134, 42_alu16.md R135 to R138). -/

namespace Sys2Proof.Machine

/-- Where the result of a two-operand operation goes: A, but CP discards it (R124). -/
def storeAluResult (op : AluOp) (r : Byte) (s : State) : State :=
  match op with
  | .cp => s
  | .add | .adc | .sub | .sbc | .and | .xor | .or => s.setReg .a r

/-- The carry an operation reads (R118, R120): C for ADC and SBC; the others read no flag. -/
def aluCarry (op : AluOp) (s : State) : Except Fault Bool :=
  if readsCarry op then readFlag .c s else .ok false

/-- The two-operand operations on A (R116 to R124): the source is read first, then A, then C for ADC and SBC. -/
def armAlu (op : AluOp) (src : Loc8) (s : State) : Except Fault Result := do
  let (v, s1) ← readLoc src s
  let a ← readReg .a s1
  let carry ← aluCarry op s1
  let out := alu8 op a v carry
  return ⟨(storeAluResult op out.result s1).setFlags out.flags, s.seqPc (.alu op src), 0⟩

/-- INC t (R125): a read, then a write of the same operand. -/
def armInc8 (t : Loc8) (s : State) : Except Fault Result := do
  let (v, s1) ← readLoc t s
  let out := inc8Result v
  let s2 ← writeLoc (.inc8 t) t out.result s1
  return ⟨s2.setFlags out.flags, s.seqPc (.inc8 t), 0⟩

/-- DEC t (R126). -/
def armDec8 (t : Loc8) (s : State) : Except Fault Result := do
  let (v, s1) ← readLoc t s
  let out := dec8Result v
  let s2 ← writeLoc (.dec8 t) t out.result s1
  return ⟨s2.setFlags out.flags, s.seqPc (.dec8 t), 0⟩

/-- DAA (R127): reads A, C, N and H; N is not touched. -/
def armDaa (s : State) : Except Fault Result := do
  let a ← readReg .a s
  let c ← readFlag .c s
  let n ← readFlag .n s
  let h ← readFlag .h s
  let out := daaResult a n h c
  return ⟨(s.setReg .a out.result).setFlags out.flags, s.seqPc .daa, 0⟩

/-- CPL (R128). -/
def armCpl (s : State) : Except Fault Result := do
  let a ← readReg .a s
  let out := cplResult a
  return ⟨(s.setReg .a out.result).setFlags out.flags, s.seqPc .cpl, 0⟩

/-- SCF (R129): reads nothing. -/
def armScf (s : State) : Except Fault Result :=
  .ok ⟨s.setFlags scfFlags, s.seqPc .scf, 0⟩

/-- CCF (R130). -/
def armCcf (s : State) : Except Fault Result := do
  let c ← readFlag .c s
  return ⟨s.setFlags (ccfFlags c), s.seqPc .ccf, 0⟩

/-- RLCA (R131). -/
def armRlca (s : State) : Except Fault Result := do
  let a ← readReg .a s
  let out := accRotate (rotLeft a)
  return ⟨(s.setReg .a out.result).setFlags out.flags, s.seqPc .rlca, 0⟩

/-- RRCA (R132). -/
def armRrca (s : State) : Except Fault Result := do
  let a ← readReg .a s
  let out := accRotate (rotRight a)
  return ⟨(s.setReg .a out.result).setFlags out.flags, s.seqPc .rrca, 0⟩

/-- RLA (R133). -/
def armRla (s : State) : Except Fault Result := do
  let a ← readReg .a s
  let c ← readFlag .c s
  let out := accRotate (rotLeftCarry a c)
  return ⟨(s.setReg .a out.result).setFlags out.flags, s.seqPc .rla, 0⟩

/-- RRA (R134). -/
def armRra (s : State) : Except Fault Result := do
  let a ← readReg .a s
  let c ← readFlag .c s
  let out := accRotate (rotRightCarry a c)
  return ⟨(s.setReg .a out.result).setFlags out.flags, s.seqPc .rra, 0⟩

/-- INC rr (R135): flags - - - -. -/
def armInc16 (r : Reg16) (s : State) : Except Fault Result := do
  let v ← readPair r s
  return ⟨s.setPair r (v + 1), s.seqPc (.inc16 r), 0⟩

/-- DEC rr (R136): flags - - - -. -/
def armDec16 (r : Reg16) (s : State) : Except Fault Result := do
  let v ← readPair r s
  return ⟨s.setPair r (v - 1), s.seqPc (.dec16 r), 0⟩

/-- ADD HL,rr (R137): HL is read, then rr; Z is not touched. -/
def armAdd16 (r : Reg16) (s : State) : Except Fault Result := do
  let v1 ← readPair .hl s
  let v2 ← readPair r s
  let out := add16Result v1 v2
  return ⟨(s.setPair .hl out.result).setFlags out.flags, s.seqPc (.add16 r), 0⟩

/-- ADD SP,e (R138): flags 0 0 * *. -/
def armAddSp (s : State) : Except Fault Result := do
  let u ← fetchImm8 s
  let out := spOffset s.sp u
  return ⟨(s.setPair .sp out.result).setFlags out.flags, s.seqPc .addSp, 0⟩

end Sys2Proof.Machine
end

