-- ==== Sys2Proof/Machine/ArmControl.lean ====
section
/-! DEFINITION. The arms of the control transfers (43_control.md R141 to R147). No arm writes a flag. -/

namespace Sys2Proof.Machine

/-- JP nn and JP cc,nn (R141): nn is read whether or not the jump is taken. -/
def armJpImm (cc : Cond) (s : State) : Except Fault Result := do
  let nn ← fetchImm16 s
  let (taken, s1) ← evalCond cc s
  return if taken then ⟨s1, nn, jpPenalty⟩ else ⟨s1, s.seqPc (.jp cc .imm16), 0⟩

/-- JP HL (R142). The decoder gives it the condition ALWAYS only; for any other, R140's rule for a transfer that is not
taken applies (assumption log 9). -/
def armJpHl (cc : Cond) (s : State) : Except Fault Result := do
  let (taken, s1) ← evalCond cc s
  if taken then
    let hl ← readPair .hl s1
    return ⟨s1, hl, jpPenalty⟩
  else
    return ⟨s1, s.seqPc (.jp cc .hl), 0⟩

/-- JR e and JR cc,e (R143): the displacement counts from pc + 2. -/
def armJr (cc : Cond) (s : State) : Except Fault Result := do
  let u ← fetchImm8 s
  let (taken, s1) ← evalCond cc s
  return if taken then ⟨s1, s.seqPc (.jp cc .rel8) + sext16 u, jpPenalty⟩ else ⟨s1, s.seqPc (.jp cc .rel8), 0⟩

/-- JP, by form (R141 to R143). -/
def armJp (cc : Cond) (f : JpForm) (s : State) : Except Fault Result :=
  match f with
  | .imm16 => armJpImm cc s
  | .hl => armJpHl cc s
  | .rel8 => armJr cc s

/-- CALL nn and CALL cc,nn (R144): the immediate is read before the push; the pushed address is pc + 3. -/
def armCall (cc : Cond) (s : State) : Except Fault Result := do
  let nn ← fetchImm16 s
  let (taken, s1) ← evalCond cc s
  if taken then
    let s2 ← push16 (s.seqPc (.call cc)) s1
    return ⟨s2, nn, callPenalty⟩
  else
    return ⟨s1, s.seqPc (.call cc), 0⟩

/-- RET, RET cc and RETI (R145, R146): the condition first (for RETI it sets ime, D40), then the pops. -/
def armRet (cc : Cond) (s : State) : Except Fault Result := do
  let (taken, s1) ← evalCond cc s
  if taken then
    let (v, s2) ← pop16 s1
    return ⟨s2, v, callPenalty⟩
  else
    return ⟨s1, s.seqPc (.ret cc), 0⟩

/-- RST t (R147): the pushed address is that of the RST itself; no penalty. -/
def armRst (target : Word) (s : State) : Except Fault Result := do
  let s1 ← push16 s.pc s
  return ⟨s1, target, 0⟩

end Sys2Proof.Machine
end

