-- ==== Sys2Proof/Machine/ArmLoad.lean ====
section
/-! DEFINITION. The arms of the load and stack rules (40_load.md R89 to R111, R114, R115), over decoded values. An arm is the
pseudocode of its rule; the guard, the operand check and the commit are `execute`'s (Machine/Execute.lean). -/

namespace Sys2Proof.Machine

/-- LD8 (R89 to R107): the byte of the source to the destination; flags - - - -. -/
def armLd8 (dst src : Loc8) (s : State) : Except Fault Result := do
  formStoreAddress dst src s
  let (v, s1) ← readLoc src s
  let s2 ← writeLoc (.ld8 dst src) dst v s1
  return ⟨s2, s.seqPc (.ld8 dst src), 0⟩

/-- LD rr,nn (R108). -/
def armLd16Imm (r : Reg16) (s : State) : Except Fault Result := do
  let nn ← fetchImm16 s
  return ⟨s.setPair r nn, s.seqPc (.ld16 (.imm r)), 0⟩

/-- LD (nn),SP (R109): the low byte of SP to nn, the high byte to nn+1. -/
def armLd16NnSp (s : State) : Except Fault Result := do
  let nn ← fetchImm16 s
  let s1 ← memWrite16 nn s.sp s
  return ⟨s1, s.seqPc (.ld16 .nnSP), 0⟩

/-- LD SP,HL (R110). -/
def armLd16SpHl (s : State) : Except Fault Result := do
  let hl ← readPair .hl s
  return ⟨s.setPair .sp hl, s.seqPc (.ld16 .spHL), 0⟩

/-- LD HL,SP+e (R111): flags 0 0 * *; SP is not changed. -/
def armLd16HlSpE (s : State) : Except Fault Result := do
  let u ← fetchImm8 s
  let out := spOffset s.sp u
  return ⟨(s.setPair .hl out.result).setFlags out.flags, s.seqPc (.ld16 .hlSPe), 0⟩

/-- LD16, by form (R108 to R111). -/
def armLd16 (w : WordLoad) (s : State) : Except Fault Result :=
  match w with
  | .imm r => armLd16Imm r s
  | .nnSP => armLd16NnSp s
  | .spHL => armLd16SpHl s
  | .hlSPe => armLd16HlSpE s

/-- PUSH rr (R114): the pair is read, then pushed high byte first. -/
def armPush (r : StkReg) (s : State) : Except Fault Result := do
  let v ← readStk r s
  let s1 ← push16 v s
  return ⟨s1, s.seqPc (.push r), 0⟩

/-- POP rr (R115): POP AF writes all four flags from the popped low byte; the other pairs leave the flags. -/
def armPop (r : StkReg) (s : State) : Except Fault Result := do
  let (v, s1) ← pop16 s
  return ⟨s1.setStk r v, s.seqPc (.pop r), 0⟩

end Sys2Proof.Machine
end

