-- ==== Sys2Proof/Machine/ArmMisc.lean ====
section
/-! DEFINITION. The arms of the single-byte operations (44_misc.md R148 to R152). None reads a register or writes a flag. -/

namespace Sys2Proof.Machine

/-- NOP (R148). -/
def armNop (s : State) : Except Fault Result := .ok ⟨s, s.seqPc .nop, 0⟩

/-- HALT (R149). -/
def armHalt (s : State) : Except Fault Result := .ok ⟨{ s with halted := true }, s.seqPc .halt, 0⟩

/-- STOP (R150): the second byte, when it has one, is never read. -/
def armStop (s : State) : Except Fault Result := .ok ⟨{ s with stopped := true }, s.seqPc .stop, 0⟩

/-- DI (R151). -/
def armDi (s : State) : Except Fault Result := .ok ⟨{ s with ime := false }, s.seqPc .di, 0⟩

/-- EI (R152): at once, with no delay. -/
def armEi (s : State) : Except Fault Result := .ok ⟨{ s with ime := true }, s.seqPc .ei, 0⟩

end Sys2Proof.Machine
end

