-- ==== Sys2Proof/Machine/ArmPrefixed.lean ====
section
/-! DEFINITION. The arms of the 0xCB-prefixed space (45_prefixed.md R155 to R165). -/

namespace Sys2Proof.Machine

/-- A rotate, shift or SWAP (R155 to R162): read t, write the result to t, then the flags * 0 0 *. `i` is the instruction. -/
def armCbRotate (i : Op) (t : Loc8) (out : Byte → Byte × Bool) (s : State) : Except Fault Result := do
  let (v, s1) ← readLoc t s
  let r := cbRotate (out v)
  let s2 ← writeLoc i t r.result s1
  return ⟨s2.setFlags r.flags, s.seqPc i, 0⟩

/-- A rotate through the carry (R157, R158): t is read, then F.C, before the write. -/
def armCbRotateCarry (i : Op) (t : Loc8) (out : Byte → Bool → Byte × Bool) (s : State) : Except Fault Result := do
  let (v, s1) ← readLoc t s
  let c ← readFlag .c s1
  let r := cbRotate (out v c)
  let s2 ← writeLoc i t r.result s1
  return ⟨s2.setFlags r.flags, s.seqPc i, 0⟩

/-- BIT b,t (R163): t is read and not written. -/
def armCbBit (b : Fin 8) (t : Loc8) (s : State) : Except Fault Result := do
  let (v, s1) ← readLoc t s
  return ⟨s1.setFlags (bitFlags b v), s.seqPc (.cb (.bit b) t), 0⟩

/-- RES and SET (R164, R165): t is read and written back, flags - - - -. -/
def armCbModify (i : Op) (t : Loc8) (f : Byte → Byte) (s : State) : Except Fault Result := do
  let (v, s1) ← readLoc t s
  let s2 ← writeLoc i t (f v) s1
  return ⟨s2, s.seqPc i, 0⟩

/-- The prefixed operations (R155 to R165). -/
def armCb (op : CbOp) (t : Loc8) (s : State) : Except Fault Result :=
  match op with
  | .rlc => armCbRotate (.cb .rlc t) t rotLeft s
  | .rrc => armCbRotate (.cb .rrc t) t rotRight s
  | .rl => armCbRotateCarry (.cb .rl t) t rotLeftCarry s
  | .rr => armCbRotateCarry (.cb .rr t) t rotRightCarry s
  | .sla => armCbRotate (.cb .sla t) t shiftLeft s
  | .sra => armCbRotate (.cb .sra t) t shiftRightArith s
  | .swap => armCbRotate (.cb .swap t) t swapNibbles s
  | .srl => armCbRotate (.cb .srl t) t shiftRight s
  | .bit b => armCbBit b t s
  | .res b => armCbModify (.cb (.res b) t) t (resBit b) s
  | .set b => armCbModify (.cb (.set b) t) t (setBit b) s

end Sys2Proof.Machine
end

