-- ==== Sys2Proof/Machine/Execute.lean ====
section
/-! DEFINITION. The execution engine of 30_encoding.md R82 to R84, over decoded values: the guard, the operand check, the one
arm of the constructor, and the commit of next_pc (R85), which stands here because `exec`'s outcome carries a state
(DESIGN CHOICE, assumption log 4). -/

namespace Sys2Proof.Machine

/-- The dispatch table of R83. -/
def arm (i : Op) (s : State) : Except Fault Result :=
  match i with
  | .ld8 dst src => armLd8 dst src s
  | .ld16 w => armLd16 w s
  | .push r => armPush r s
  | .pop r => armPop r s
  | .alu op src => armAlu op src s
  | .inc8 t => armInc8 t s
  | .dec8 t => armDec8 t s
  | .daa => armDaa s
  | .cpl => armCpl s
  | .scf => armScf s
  | .ccf => armCcf s
  | .rlca => armRlca s
  | .rrca => armRrca s
  | .rla => armRla s
  | .rra => armRra s
  | .inc16 r => armInc16 r s
  | .dec16 r => armDec16 r s
  | .add16 r => armAdd16 r s
  | .addSp => armAddSp s
  | .jp cc f => armJp cc f s
  | .call cc => armCall cc s
  | .ret cc => armRet cc s
  | .rst t => armRst t s
  | .nop => armNop s
  | .halt => armHalt s
  | .stop => armStop s
  | .di => armDi s
  | .ei => armEi s
  | .cb op t => armCb op t s

/-- The outcome of an arm: its state with PC committed, or its fatal condition. -/
def finish (r : Except Fault Result) : Host.Outcome State Fault Refusal :=
  match r with
  | .ok r => .next (r.state.commit r.nextPc r.extra)
  | .error f => .fault f

/-- `execute` (R82 to R84): while halted or stopped, nothing changes and the result is (pc, 0); otherwise an unadmitted
operand combination raises FATAL_OPERAND before anything changes, and an admitted one runs its arm. -/
def execute (i : Op) (s : State) : Host.Outcome State Fault Refusal :=
  if s.running then
    if i.admitted then finish (arm i s) else .fault (.operand i)
  else .next (s.commit s.pc 0)

end Sys2Proof.Machine
end

