-- ==== Sys2Proof/Machine/Alu16.lean ====
section
/-! DEFINITION. The meanings of the 16-bit increment, decrement and add instructions (42_alu16.md): one definition per instruction,
over the shared engine `execute`, whose arms follow the rules named here. -/

namespace Sys2Proof.Machine

/-- INC BC (R135). -/
def execInc_BC (s : State) : Host.Outcome State Fault Refusal :=
  execute (.inc16 .bc) s

/-- ADD HL,BC (R137). -/
def execAdd_HL_BC (s : State) : Host.Outcome State Fault Refusal :=
  execute (.add16 .bc) s

/-- DEC BC (R136). -/
def execDec_BC (s : State) : Host.Outcome State Fault Refusal :=
  execute (.dec16 .bc) s

/-- INC DE (R135). -/
def execInc_DE (s : State) : Host.Outcome State Fault Refusal :=
  execute (.inc16 .de) s

/-- ADD HL,DE (R137). -/
def execAdd_HL_DE (s : State) : Host.Outcome State Fault Refusal :=
  execute (.add16 .de) s

/-- DEC DE (R136). -/
def execDec_DE (s : State) : Host.Outcome State Fault Refusal :=
  execute (.dec16 .de) s

/-- INC HL (R135). -/
def execInc_HL (s : State) : Host.Outcome State Fault Refusal :=
  execute (.inc16 .hl) s

/-- ADD HL,HL (R137). -/
def execAdd_HL_HL (s : State) : Host.Outcome State Fault Refusal :=
  execute (.add16 .hl) s

/-- DEC HL (R136). -/
def execDec_HL (s : State) : Host.Outcome State Fault Refusal :=
  execute (.dec16 .hl) s

/-- INC SP (R135). -/
def execInc_SP (s : State) : Host.Outcome State Fault Refusal :=
  execute (.inc16 .sp) s

/-- ADD HL,SP (R137). -/
def execAdd_HL_SP (s : State) : Host.Outcome State Fault Refusal :=
  execute (.add16 .sp) s

/-- DEC SP (R136). -/
def execDec_SP (s : State) : Host.Outcome State Fault Refusal :=
  execute (.dec16 .sp) s

/-- ADD SP,e (R138). -/
def execAdd_SP_e (s : State) : Host.Outcome State Fault Refusal :=
  execute (.addSp) s

end Sys2Proof.Machine
end

