-- ==== Sys2Proof/Machine/Alu8.lean ====
section
/-! DEFINITION. The meanings of the 8-bit arithmetic and logic instructions (41_alu8.md): one definition per instruction,
over the shared engine `execute`, whose arms follow the rules named here. -/

namespace Sys2Proof.Machine

/-- INC B (R125). -/
def execInc_B (s : State) : Host.Outcome State Fault Refusal :=
  execute (.inc8 (.reg .b)) s

/-- DEC B (R126). -/
def execDec_B (s : State) : Host.Outcome State Fault Refusal :=
  execute (.dec8 (.reg .b)) s

/-- RLCA (R131). -/
def execRlca (s : State) : Host.Outcome State Fault Refusal :=
  execute (.rlca) s

/-- INC C (R125). -/
def execInc_C (s : State) : Host.Outcome State Fault Refusal :=
  execute (.inc8 (.reg .c)) s

/-- DEC C (R126). -/
def execDec_C (s : State) : Host.Outcome State Fault Refusal :=
  execute (.dec8 (.reg .c)) s

/-- RRCA (R132). -/
def execRrca (s : State) : Host.Outcome State Fault Refusal :=
  execute (.rrca) s

/-- INC D (R125). -/
def execInc_D (s : State) : Host.Outcome State Fault Refusal :=
  execute (.inc8 (.reg .d)) s

/-- DEC D (R126). -/
def execDec_D (s : State) : Host.Outcome State Fault Refusal :=
  execute (.dec8 (.reg .d)) s

/-- RLA (R133). -/
def execRla (s : State) : Host.Outcome State Fault Refusal :=
  execute (.rla) s

/-- INC E (R125). -/
def execInc_E (s : State) : Host.Outcome State Fault Refusal :=
  execute (.inc8 (.reg .e)) s

/-- DEC E (R126). -/
def execDec_E (s : State) : Host.Outcome State Fault Refusal :=
  execute (.dec8 (.reg .e)) s

/-- RRA (R134). -/
def execRra (s : State) : Host.Outcome State Fault Refusal :=
  execute (.rra) s

/-- INC H (R125). -/
def execInc_H (s : State) : Host.Outcome State Fault Refusal :=
  execute (.inc8 (.reg .h)) s

/-- DEC H (R126). -/
def execDec_H (s : State) : Host.Outcome State Fault Refusal :=
  execute (.dec8 (.reg .h)) s

/-- DAA (R127). -/
def execDaa (s : State) : Host.Outcome State Fault Refusal :=
  execute (.daa) s

/-- INC L (R125). -/
def execInc_L (s : State) : Host.Outcome State Fault Refusal :=
  execute (.inc8 (.reg .l)) s

/-- DEC L (R126). -/
def execDec_L (s : State) : Host.Outcome State Fault Refusal :=
  execute (.dec8 (.reg .l)) s

/-- CPL (R128). -/
def execCpl (s : State) : Host.Outcome State Fault Refusal :=
  execute (.cpl) s

/-- INC (HL) (R125). -/
def execInc_atHL (s : State) : Host.Outcome State Fault Refusal :=
  execute (.inc8 .indHL) s

/-- DEC (HL) (R126). -/
def execDec_atHL (s : State) : Host.Outcome State Fault Refusal :=
  execute (.dec8 .indHL) s

/-- SCF (R129). -/
def execScf (s : State) : Host.Outcome State Fault Refusal :=
  execute (.scf) s

/-- INC A (R125). -/
def execInc_A (s : State) : Host.Outcome State Fault Refusal :=
  execute (.inc8 (.reg .a)) s

/-- DEC A (R126). -/
def execDec_A (s : State) : Host.Outcome State Fault Refusal :=
  execute (.dec8 (.reg .a)) s

/-- CCF (R130). -/
def execCcf (s : State) : Host.Outcome State Fault Refusal :=
  execute (.ccf) s

/-- ADD A,B (R117). -/
def execAdd_A_B (s : State) : Host.Outcome State Fault Refusal :=
  execute (.alu .add (.reg .b)) s

/-- ADD A,C (R117). -/
def execAdd_A_C (s : State) : Host.Outcome State Fault Refusal :=
  execute (.alu .add (.reg .c)) s

/-- ADD A,D (R117). -/
def execAdd_A_D (s : State) : Host.Outcome State Fault Refusal :=
  execute (.alu .add (.reg .d)) s

/-- ADD A,E (R117). -/
def execAdd_A_E (s : State) : Host.Outcome State Fault Refusal :=
  execute (.alu .add (.reg .e)) s

/-- ADD A,H (R117). -/
def execAdd_A_H (s : State) : Host.Outcome State Fault Refusal :=
  execute (.alu .add (.reg .h)) s

/-- ADD A,L (R117). -/
def execAdd_A_L (s : State) : Host.Outcome State Fault Refusal :=
  execute (.alu .add (.reg .l)) s

/-- ADD A,(HL) (R117). -/
def execAdd_A_atHL (s : State) : Host.Outcome State Fault Refusal :=
  execute (.alu .add .indHL) s

/-- ADD A,A (R117). -/
def execAdd_A_A (s : State) : Host.Outcome State Fault Refusal :=
  execute (.alu .add (.reg .a)) s

/-- ADC A,B (R118). -/
def execAdc_A_B (s : State) : Host.Outcome State Fault Refusal :=
  execute (.alu .adc (.reg .b)) s

/-- ADC A,C (R118). -/
def execAdc_A_C (s : State) : Host.Outcome State Fault Refusal :=
  execute (.alu .adc (.reg .c)) s

/-- ADC A,D (R118). -/
def execAdc_A_D (s : State) : Host.Outcome State Fault Refusal :=
  execute (.alu .adc (.reg .d)) s

/-- ADC A,E (R118). -/
def execAdc_A_E (s : State) : Host.Outcome State Fault Refusal :=
  execute (.alu .adc (.reg .e)) s

/-- ADC A,H (R118). -/
def execAdc_A_H (s : State) : Host.Outcome State Fault Refusal :=
  execute (.alu .adc (.reg .h)) s

/-- ADC A,L (R118). -/
def execAdc_A_L (s : State) : Host.Outcome State Fault Refusal :=
  execute (.alu .adc (.reg .l)) s

/-- ADC A,(HL) (R118). -/
def execAdc_A_atHL (s : State) : Host.Outcome State Fault Refusal :=
  execute (.alu .adc .indHL) s

/-- ADC A,A (R118). -/
def execAdc_A_A (s : State) : Host.Outcome State Fault Refusal :=
  execute (.alu .adc (.reg .a)) s

/-- SUB A,B (R119). -/
def execSub_A_B (s : State) : Host.Outcome State Fault Refusal :=
  execute (.alu .sub (.reg .b)) s

/-- SUB A,C (R119). -/
def execSub_A_C (s : State) : Host.Outcome State Fault Refusal :=
  execute (.alu .sub (.reg .c)) s

/-- SUB A,D (R119). -/
def execSub_A_D (s : State) : Host.Outcome State Fault Refusal :=
  execute (.alu .sub (.reg .d)) s

/-- SUB A,E (R119). -/
def execSub_A_E (s : State) : Host.Outcome State Fault Refusal :=
  execute (.alu .sub (.reg .e)) s

/-- SUB A,H (R119). -/
def execSub_A_H (s : State) : Host.Outcome State Fault Refusal :=
  execute (.alu .sub (.reg .h)) s

/-- SUB A,L (R119). -/
def execSub_A_L (s : State) : Host.Outcome State Fault Refusal :=
  execute (.alu .sub (.reg .l)) s

/-- SUB A,(HL) (R119). -/
def execSub_A_atHL (s : State) : Host.Outcome State Fault Refusal :=
  execute (.alu .sub .indHL) s

/-- SUB A,A (R119). -/
def execSub_A_A (s : State) : Host.Outcome State Fault Refusal :=
  execute (.alu .sub (.reg .a)) s

/-- SBC A,B (R120). -/
def execSbc_A_B (s : State) : Host.Outcome State Fault Refusal :=
  execute (.alu .sbc (.reg .b)) s

/-- SBC A,C (R120). -/
def execSbc_A_C (s : State) : Host.Outcome State Fault Refusal :=
  execute (.alu .sbc (.reg .c)) s

/-- SBC A,D (R120). -/
def execSbc_A_D (s : State) : Host.Outcome State Fault Refusal :=
  execute (.alu .sbc (.reg .d)) s

/-- SBC A,E (R120). -/
def execSbc_A_E (s : State) : Host.Outcome State Fault Refusal :=
  execute (.alu .sbc (.reg .e)) s

/-- SBC A,H (R120). -/
def execSbc_A_H (s : State) : Host.Outcome State Fault Refusal :=
  execute (.alu .sbc (.reg .h)) s

/-- SBC A,L (R120). -/
def execSbc_A_L (s : State) : Host.Outcome State Fault Refusal :=
  execute (.alu .sbc (.reg .l)) s

/-- SBC A,(HL) (R120). -/
def execSbc_A_atHL (s : State) : Host.Outcome State Fault Refusal :=
  execute (.alu .sbc .indHL) s

/-- SBC A,A (R120). -/
def execSbc_A_A (s : State) : Host.Outcome State Fault Refusal :=
  execute (.alu .sbc (.reg .a)) s

/-- AND A,B (R121). -/
def execAnd_A_B (s : State) : Host.Outcome State Fault Refusal :=
  execute (.alu .and (.reg .b)) s

/-- AND A,C (R121). -/
def execAnd_A_C (s : State) : Host.Outcome State Fault Refusal :=
  execute (.alu .and (.reg .c)) s

/-- AND A,D (R121). -/
def execAnd_A_D (s : State) : Host.Outcome State Fault Refusal :=
  execute (.alu .and (.reg .d)) s

/-- AND A,E (R121). -/
def execAnd_A_E (s : State) : Host.Outcome State Fault Refusal :=
  execute (.alu .and (.reg .e)) s

/-- AND A,H (R121). -/
def execAnd_A_H (s : State) : Host.Outcome State Fault Refusal :=
  execute (.alu .and (.reg .h)) s

/-- AND A,L (R121). -/
def execAnd_A_L (s : State) : Host.Outcome State Fault Refusal :=
  execute (.alu .and (.reg .l)) s

/-- AND A,(HL) (R121). -/
def execAnd_A_atHL (s : State) : Host.Outcome State Fault Refusal :=
  execute (.alu .and .indHL) s

/-- AND A,A (R121). -/
def execAnd_A_A (s : State) : Host.Outcome State Fault Refusal :=
  execute (.alu .and (.reg .a)) s

/-- XOR A,B (R122). -/
def execXor_A_B (s : State) : Host.Outcome State Fault Refusal :=
  execute (.alu .xor (.reg .b)) s

/-- XOR A,C (R122). -/
def execXor_A_C (s : State) : Host.Outcome State Fault Refusal :=
  execute (.alu .xor (.reg .c)) s

/-- XOR A,D (R122). -/
def execXor_A_D (s : State) : Host.Outcome State Fault Refusal :=
  execute (.alu .xor (.reg .d)) s

/-- XOR A,E (R122). -/
def execXor_A_E (s : State) : Host.Outcome State Fault Refusal :=
  execute (.alu .xor (.reg .e)) s

/-- XOR A,H (R122). -/
def execXor_A_H (s : State) : Host.Outcome State Fault Refusal :=
  execute (.alu .xor (.reg .h)) s

/-- XOR A,L (R122). -/
def execXor_A_L (s : State) : Host.Outcome State Fault Refusal :=
  execute (.alu .xor (.reg .l)) s

/-- XOR A,(HL) (R122). -/
def execXor_A_atHL (s : State) : Host.Outcome State Fault Refusal :=
  execute (.alu .xor .indHL) s

/-- XOR A,A (R122). -/
def execXor_A_A (s : State) : Host.Outcome State Fault Refusal :=
  execute (.alu .xor (.reg .a)) s

/-- OR A,B (R123). -/
def execOr_A_B (s : State) : Host.Outcome State Fault Refusal :=
  execute (.alu .or (.reg .b)) s

/-- OR A,C (R123). -/
def execOr_A_C (s : State) : Host.Outcome State Fault Refusal :=
  execute (.alu .or (.reg .c)) s

/-- OR A,D (R123). -/
def execOr_A_D (s : State) : Host.Outcome State Fault Refusal :=
  execute (.alu .or (.reg .d)) s

/-- OR A,E (R123). -/
def execOr_A_E (s : State) : Host.Outcome State Fault Refusal :=
  execute (.alu .or (.reg .e)) s

/-- OR A,H (R123). -/
def execOr_A_H (s : State) : Host.Outcome State Fault Refusal :=
  execute (.alu .or (.reg .h)) s

/-- OR A,L (R123). -/
def execOr_A_L (s : State) : Host.Outcome State Fault Refusal :=
  execute (.alu .or (.reg .l)) s

/-- OR A,(HL) (R123). -/
def execOr_A_atHL (s : State) : Host.Outcome State Fault Refusal :=
  execute (.alu .or .indHL) s

/-- OR A,A (R123). -/
def execOr_A_A (s : State) : Host.Outcome State Fault Refusal :=
  execute (.alu .or (.reg .a)) s

/-- CP A,B (R124). -/
def execCp_A_B (s : State) : Host.Outcome State Fault Refusal :=
  execute (.alu .cp (.reg .b)) s

/-- CP A,C (R124). -/
def execCp_A_C (s : State) : Host.Outcome State Fault Refusal :=
  execute (.alu .cp (.reg .c)) s

/-- CP A,D (R124). -/
def execCp_A_D (s : State) : Host.Outcome State Fault Refusal :=
  execute (.alu .cp (.reg .d)) s

/-- CP A,E (R124). -/
def execCp_A_E (s : State) : Host.Outcome State Fault Refusal :=
  execute (.alu .cp (.reg .e)) s

/-- CP A,H (R124). -/
def execCp_A_H (s : State) : Host.Outcome State Fault Refusal :=
  execute (.alu .cp (.reg .h)) s

/-- CP A,L (R124). -/
def execCp_A_L (s : State) : Host.Outcome State Fault Refusal :=
  execute (.alu .cp (.reg .l)) s

/-- CP A,(HL) (R124). -/
def execCp_A_atHL (s : State) : Host.Outcome State Fault Refusal :=
  execute (.alu .cp .indHL) s

/-- CP A,A (R124). -/
def execCp_A_A (s : State) : Host.Outcome State Fault Refusal :=
  execute (.alu .cp (.reg .a)) s

/-- ADD A,n (R117). -/
def execAdd_A_n (s : State) : Host.Outcome State Fault Refusal :=
  execute (.alu .add .imm8) s

/-- ADC A,n (R118). -/
def execAdc_A_n (s : State) : Host.Outcome State Fault Refusal :=
  execute (.alu .adc .imm8) s

/-- SUB A,n (R119). -/
def execSub_A_n (s : State) : Host.Outcome State Fault Refusal :=
  execute (.alu .sub .imm8) s

/-- SBC A,n (R120). -/
def execSbc_A_n (s : State) : Host.Outcome State Fault Refusal :=
  execute (.alu .sbc .imm8) s

/-- AND A,n (R121). -/
def execAnd_A_n (s : State) : Host.Outcome State Fault Refusal :=
  execute (.alu .and .imm8) s

/-- XOR A,n (R122). -/
def execXor_A_n (s : State) : Host.Outcome State Fault Refusal :=
  execute (.alu .xor .imm8) s

/-- OR A,n (R123). -/
def execOr_A_n (s : State) : Host.Outcome State Fault Refusal :=
  execute (.alu .or .imm8) s

/-- CP A,n (R124). -/
def execCp_A_n (s : State) : Host.Outcome State Fault Refusal :=
  execute (.alu .cp .imm8) s

end Sys2Proof.Machine
end

