-- ==== Sys2Proof/Machine/Control.lean ====
section
/-! DEFINITION. The meanings of the control transfers (43_control.md): one definition per instruction,
over the shared engine `execute`, whose arms follow the rules named here. -/

namespace Sys2Proof.Machine

/-- JR e (R143). -/
def execJr_e (s : State) : Host.Outcome State Fault Refusal :=
  execute (.jp .always .rel8) s

/-- JR NZ,e (R143). -/
def execJr_NZ_e (s : State) : Host.Outcome State Fault Refusal :=
  execute (.jp .nz .rel8) s

/-- JR Z,e (R143). -/
def execJr_Z_e (s : State) : Host.Outcome State Fault Refusal :=
  execute (.jp .z .rel8) s

/-- JR NC,e (R143). -/
def execJr_NC_e (s : State) : Host.Outcome State Fault Refusal :=
  execute (.jp .nc .rel8) s

/-- JR C,e (R143). -/
def execJr_C_e (s : State) : Host.Outcome State Fault Refusal :=
  execute (.jp .c .rel8) s

/-- RET NZ (R145). -/
def execRet_NZ (s : State) : Host.Outcome State Fault Refusal :=
  execute (.ret .nz) s

/-- JP NZ,nn (R141). -/
def execJp_NZ_nn (s : State) : Host.Outcome State Fault Refusal :=
  execute (.jp .nz .imm16) s

/-- JP nn (R141). -/
def execJp_nn (s : State) : Host.Outcome State Fault Refusal :=
  execute (.jp .always .imm16) s

/-- CALL NZ,nn (R144). -/
def execCall_NZ_nn (s : State) : Host.Outcome State Fault Refusal :=
  execute (.call .nz) s

/-- RST 00h (R147). -/
def execRst_00h (s : State) : Host.Outcome State Fault Refusal :=
  execute (.rst 0x0000) s

/-- RET Z (R145). -/
def execRet_Z (s : State) : Host.Outcome State Fault Refusal :=
  execute (.ret .z) s

/-- RET (R145). -/
def execRet (s : State) : Host.Outcome State Fault Refusal :=
  execute (.ret .always) s

/-- JP Z,nn (R141). -/
def execJp_Z_nn (s : State) : Host.Outcome State Fault Refusal :=
  execute (.jp .z .imm16) s

/-- CALL Z,nn (R144). -/
def execCall_Z_nn (s : State) : Host.Outcome State Fault Refusal :=
  execute (.call .z) s

/-- CALL nn (R144). -/
def execCall_nn (s : State) : Host.Outcome State Fault Refusal :=
  execute (.call .always) s

/-- RST 08h (R147). -/
def execRst_08h (s : State) : Host.Outcome State Fault Refusal :=
  execute (.rst 0x0008) s

/-- RET NC (R145). -/
def execRet_NC (s : State) : Host.Outcome State Fault Refusal :=
  execute (.ret .nc) s

/-- JP NC,nn (R141). -/
def execJp_NC_nn (s : State) : Host.Outcome State Fault Refusal :=
  execute (.jp .nc .imm16) s

/-- CALL NC,nn (R144). -/
def execCall_NC_nn (s : State) : Host.Outcome State Fault Refusal :=
  execute (.call .nc) s

/-- RST 10h (R147). -/
def execRst_10h (s : State) : Host.Outcome State Fault Refusal :=
  execute (.rst 0x0010) s

/-- RET C (R145). -/
def execRet_C (s : State) : Host.Outcome State Fault Refusal :=
  execute (.ret .c) s

/-- RETI (R146). -/
def execReti (s : State) : Host.Outcome State Fault Refusal :=
  execute (.ret .alwaysIe) s

/-- JP C,nn (R141). -/
def execJp_C_nn (s : State) : Host.Outcome State Fault Refusal :=
  execute (.jp .c .imm16) s

/-- CALL C,nn (R144). -/
def execCall_C_nn (s : State) : Host.Outcome State Fault Refusal :=
  execute (.call .c) s

/-- RST 18h (R147). -/
def execRst_18h (s : State) : Host.Outcome State Fault Refusal :=
  execute (.rst 0x0018) s

/-- RST 20h (R147). -/
def execRst_20h (s : State) : Host.Outcome State Fault Refusal :=
  execute (.rst 0x0020) s

/-- JP HL (R142). -/
def execJp_HL (s : State) : Host.Outcome State Fault Refusal :=
  execute (.jp .always .hl) s

/-- RST 28h (R147). -/
def execRst_28h (s : State) : Host.Outcome State Fault Refusal :=
  execute (.rst 0x0028) s

/-- RST 30h (R147). -/
def execRst_30h (s : State) : Host.Outcome State Fault Refusal :=
  execute (.rst 0x0030) s

/-- RST 38h (R147). -/
def execRst_38h (s : State) : Host.Outcome State Fault Refusal :=
  execute (.rst 0x0038) s

end Sys2Proof.Machine
end

