-- ==== Sys2Proof/Machine/Load.lean ====
section
/-! DEFINITION. The meanings of the load, store and stack instructions (40_load.md): one definition per instruction,
over the shared engine `execute`, whose arms follow the rules named here. -/

namespace Sys2Proof.Machine

/-- LD BC,nn (R108). -/
def execLd_BC_nn (s : State) : Host.Outcome State Fault Refusal :=
  execute (.ld16 (.imm .bc)) s

/-- LD (BC),A (R96). -/
def execLd_atBC_A (s : State) : Host.Outcome State Fault Refusal :=
  execute (.ld8 .indBC (.reg .a)) s

/-- LD B,n (R90). -/
def execLd_B_n (s : State) : Host.Outcome State Fault Refusal :=
  execute (.ld8 (.reg .b) .imm8) s

/-- LD (nn),SP (R109). -/
def execLd_atNN_SP (s : State) : Host.Outcome State Fault Refusal :=
  execute (.ld16 .nnSP) s

/-- LD A,(BC) (R94). -/
def execLd_A_atBC (s : State) : Host.Outcome State Fault Refusal :=
  execute (.ld8 (.reg .a) .indBC) s

/-- LD C,n (R90). -/
def execLd_C_n (s : State) : Host.Outcome State Fault Refusal :=
  execute (.ld8 (.reg .c) .imm8) s

/-- LD DE,nn (R108). -/
def execLd_DE_nn (s : State) : Host.Outcome State Fault Refusal :=
  execute (.ld16 (.imm .de)) s

/-- LD (DE),A (R97). -/
def execLd_atDE_A (s : State) : Host.Outcome State Fault Refusal :=
  execute (.ld8 .indDE (.reg .a)) s

/-- LD D,n (R90). -/
def execLd_D_n (s : State) : Host.Outcome State Fault Refusal :=
  execute (.ld8 (.reg .d) .imm8) s

/-- LD A,(DE) (R95). -/
def execLd_A_atDE (s : State) : Host.Outcome State Fault Refusal :=
  execute (.ld8 (.reg .a) .indDE) s

/-- LD E,n (R90). -/
def execLd_E_n (s : State) : Host.Outcome State Fault Refusal :=
  execute (.ld8 (.reg .e) .imm8) s

/-- LD HL,nn (R108). -/
def execLd_HL_nn (s : State) : Host.Outcome State Fault Refusal :=
  execute (.ld16 (.imm .hl)) s

/-- LD (HL+),A (R100). -/
def execLd_atHLi_A (s : State) : Host.Outcome State Fault Refusal :=
  execute (.ld8 .indHLInc (.reg .a)) s

/-- LD H,n (R90). -/
def execLd_H_n (s : State) : Host.Outcome State Fault Refusal :=
  execute (.ld8 (.reg .h) .imm8) s

/-- LD A,(HL+) (R98). -/
def execLd_A_atHLi (s : State) : Host.Outcome State Fault Refusal :=
  execute (.ld8 (.reg .a) .indHLInc) s

/-- LD L,n (R90). -/
def execLd_L_n (s : State) : Host.Outcome State Fault Refusal :=
  execute (.ld8 (.reg .l) .imm8) s

/-- LD SP,nn (R108). -/
def execLd_SP_nn (s : State) : Host.Outcome State Fault Refusal :=
  execute (.ld16 (.imm .sp)) s

/-- LD (HL-),A (R101). -/
def execLd_atHLd_A (s : State) : Host.Outcome State Fault Refusal :=
  execute (.ld8 .indHLDec (.reg .a)) s

/-- LD (HL),n (R93). -/
def execLd_atHL_n (s : State) : Host.Outcome State Fault Refusal :=
  execute (.ld8 .indHL .imm8) s

/-- LD A,(HL-) (R99). -/
def execLd_A_atHLd (s : State) : Host.Outcome State Fault Refusal :=
  execute (.ld8 (.reg .a) .indHLDec) s

/-- LD A,n (R90). -/
def execLd_A_n (s : State) : Host.Outcome State Fault Refusal :=
  execute (.ld8 (.reg .a) .imm8) s

/-- LD B,B (R89). -/
def execLd_B_B (s : State) : Host.Outcome State Fault Refusal :=
  execute (.ld8 (.reg .b) (.reg .b)) s

/-- LD B,C (R89). -/
def execLd_B_C (s : State) : Host.Outcome State Fault Refusal :=
  execute (.ld8 (.reg .b) (.reg .c)) s

/-- LD B,D (R89). -/
def execLd_B_D (s : State) : Host.Outcome State Fault Refusal :=
  execute (.ld8 (.reg .b) (.reg .d)) s

/-- LD B,E (R89). -/
def execLd_B_E (s : State) : Host.Outcome State Fault Refusal :=
  execute (.ld8 (.reg .b) (.reg .e)) s

/-- LD B,H (R89). -/
def execLd_B_H (s : State) : Host.Outcome State Fault Refusal :=
  execute (.ld8 (.reg .b) (.reg .h)) s

/-- LD B,L (R89). -/
def execLd_B_L (s : State) : Host.Outcome State Fault Refusal :=
  execute (.ld8 (.reg .b) (.reg .l)) s

/-- LD B,(HL) (R91). -/
def execLd_B_atHL (s : State) : Host.Outcome State Fault Refusal :=
  execute (.ld8 (.reg .b) .indHL) s

/-- LD B,A (R89). -/
def execLd_B_A (s : State) : Host.Outcome State Fault Refusal :=
  execute (.ld8 (.reg .b) (.reg .a)) s

/-- LD C,B (R89). -/
def execLd_C_B (s : State) : Host.Outcome State Fault Refusal :=
  execute (.ld8 (.reg .c) (.reg .b)) s

/-- LD C,C (R89). -/
def execLd_C_C (s : State) : Host.Outcome State Fault Refusal :=
  execute (.ld8 (.reg .c) (.reg .c)) s

/-- LD C,D (R89). -/
def execLd_C_D (s : State) : Host.Outcome State Fault Refusal :=
  execute (.ld8 (.reg .c) (.reg .d)) s

/-- LD C,E (R89). -/
def execLd_C_E (s : State) : Host.Outcome State Fault Refusal :=
  execute (.ld8 (.reg .c) (.reg .e)) s

/-- LD C,H (R89). -/
def execLd_C_H (s : State) : Host.Outcome State Fault Refusal :=
  execute (.ld8 (.reg .c) (.reg .h)) s

/-- LD C,L (R89). -/
def execLd_C_L (s : State) : Host.Outcome State Fault Refusal :=
  execute (.ld8 (.reg .c) (.reg .l)) s

/-- LD C,(HL) (R91). -/
def execLd_C_atHL (s : State) : Host.Outcome State Fault Refusal :=
  execute (.ld8 (.reg .c) .indHL) s

/-- LD C,A (R89). -/
def execLd_C_A (s : State) : Host.Outcome State Fault Refusal :=
  execute (.ld8 (.reg .c) (.reg .a)) s

/-- LD D,B (R89). -/
def execLd_D_B (s : State) : Host.Outcome State Fault Refusal :=
  execute (.ld8 (.reg .d) (.reg .b)) s

/-- LD D,C (R89). -/
def execLd_D_C (s : State) : Host.Outcome State Fault Refusal :=
  execute (.ld8 (.reg .d) (.reg .c)) s

/-- LD D,D (R89). -/
def execLd_D_D (s : State) : Host.Outcome State Fault Refusal :=
  execute (.ld8 (.reg .d) (.reg .d)) s

/-- LD D,E (R89). -/
def execLd_D_E (s : State) : Host.Outcome State Fault Refusal :=
  execute (.ld8 (.reg .d) (.reg .e)) s

/-- LD D,H (R89). -/
def execLd_D_H (s : State) : Host.Outcome State Fault Refusal :=
  execute (.ld8 (.reg .d) (.reg .h)) s

/-- LD D,L (R89). -/
def execLd_D_L (s : State) : Host.Outcome State Fault Refusal :=
  execute (.ld8 (.reg .d) (.reg .l)) s

/-- LD D,(HL) (R91). -/
def execLd_D_atHL (s : State) : Host.Outcome State Fault Refusal :=
  execute (.ld8 (.reg .d) .indHL) s

/-- LD D,A (R89). -/
def execLd_D_A (s : State) : Host.Outcome State Fault Refusal :=
  execute (.ld8 (.reg .d) (.reg .a)) s

/-- LD E,B (R89). -/
def execLd_E_B (s : State) : Host.Outcome State Fault Refusal :=
  execute (.ld8 (.reg .e) (.reg .b)) s

/-- LD E,C (R89). -/
def execLd_E_C (s : State) : Host.Outcome State Fault Refusal :=
  execute (.ld8 (.reg .e) (.reg .c)) s

/-- LD E,D (R89). -/
def execLd_E_D (s : State) : Host.Outcome State Fault Refusal :=
  execute (.ld8 (.reg .e) (.reg .d)) s

/-- LD E,E (R89). -/
def execLd_E_E (s : State) : Host.Outcome State Fault Refusal :=
  execute (.ld8 (.reg .e) (.reg .e)) s

/-- LD E,H (R89). -/
def execLd_E_H (s : State) : Host.Outcome State Fault Refusal :=
  execute (.ld8 (.reg .e) (.reg .h)) s

/-- LD E,L (R89). -/
def execLd_E_L (s : State) : Host.Outcome State Fault Refusal :=
  execute (.ld8 (.reg .e) (.reg .l)) s

/-- LD E,(HL) (R91). -/
def execLd_E_atHL (s : State) : Host.Outcome State Fault Refusal :=
  execute (.ld8 (.reg .e) .indHL) s

/-- LD E,A (R89). -/
def execLd_E_A (s : State) : Host.Outcome State Fault Refusal :=
  execute (.ld8 (.reg .e) (.reg .a)) s

/-- LD H,B (R89). -/
def execLd_H_B (s : State) : Host.Outcome State Fault Refusal :=
  execute (.ld8 (.reg .h) (.reg .b)) s

/-- LD H,C (R89). -/
def execLd_H_C (s : State) : Host.Outcome State Fault Refusal :=
  execute (.ld8 (.reg .h) (.reg .c)) s

/-- LD H,D (R89). -/
def execLd_H_D (s : State) : Host.Outcome State Fault Refusal :=
  execute (.ld8 (.reg .h) (.reg .d)) s

/-- LD H,E (R89). -/
def execLd_H_E (s : State) : Host.Outcome State Fault Refusal :=
  execute (.ld8 (.reg .h) (.reg .e)) s

/-- LD H,H (R89). -/
def execLd_H_H (s : State) : Host.Outcome State Fault Refusal :=
  execute (.ld8 (.reg .h) (.reg .h)) s

/-- LD H,L (R89). -/
def execLd_H_L (s : State) : Host.Outcome State Fault Refusal :=
  execute (.ld8 (.reg .h) (.reg .l)) s

/-- LD H,(HL) (R91). -/
def execLd_H_atHL (s : State) : Host.Outcome State Fault Refusal :=
  execute (.ld8 (.reg .h) .indHL) s

/-- LD H,A (R89). -/
def execLd_H_A (s : State) : Host.Outcome State Fault Refusal :=
  execute (.ld8 (.reg .h) (.reg .a)) s

/-- LD L,B (R89). -/
def execLd_L_B (s : State) : Host.Outcome State Fault Refusal :=
  execute (.ld8 (.reg .l) (.reg .b)) s

/-- LD L,C (R89). -/
def execLd_L_C (s : State) : Host.Outcome State Fault Refusal :=
  execute (.ld8 (.reg .l) (.reg .c)) s

/-- LD L,D (R89). -/
def execLd_L_D (s : State) : Host.Outcome State Fault Refusal :=
  execute (.ld8 (.reg .l) (.reg .d)) s

/-- LD L,E (R89). -/
def execLd_L_E (s : State) : Host.Outcome State Fault Refusal :=
  execute (.ld8 (.reg .l) (.reg .e)) s

/-- LD L,H (R89). -/
def execLd_L_H (s : State) : Host.Outcome State Fault Refusal :=
  execute (.ld8 (.reg .l) (.reg .h)) s

/-- LD L,L (R89). -/
def execLd_L_L (s : State) : Host.Outcome State Fault Refusal :=
  execute (.ld8 (.reg .l) (.reg .l)) s

/-- LD L,(HL) (R91). -/
def execLd_L_atHL (s : State) : Host.Outcome State Fault Refusal :=
  execute (.ld8 (.reg .l) .indHL) s

/-- LD L,A (R89). -/
def execLd_L_A (s : State) : Host.Outcome State Fault Refusal :=
  execute (.ld8 (.reg .l) (.reg .a)) s

/-- LD (HL),B (R92). -/
def execLd_atHL_B (s : State) : Host.Outcome State Fault Refusal :=
  execute (.ld8 .indHL (.reg .b)) s

/-- LD (HL),C (R92). -/
def execLd_atHL_C (s : State) : Host.Outcome State Fault Refusal :=
  execute (.ld8 .indHL (.reg .c)) s

/-- LD (HL),D (R92). -/
def execLd_atHL_D (s : State) : Host.Outcome State Fault Refusal :=
  execute (.ld8 .indHL (.reg .d)) s

/-- LD (HL),E (R92). -/
def execLd_atHL_E (s : State) : Host.Outcome State Fault Refusal :=
  execute (.ld8 .indHL (.reg .e)) s

/-- LD (HL),H (R92). -/
def execLd_atHL_H (s : State) : Host.Outcome State Fault Refusal :=
  execute (.ld8 .indHL (.reg .h)) s

/-- LD (HL),L (R92). -/
def execLd_atHL_L (s : State) : Host.Outcome State Fault Refusal :=
  execute (.ld8 .indHL (.reg .l)) s

/-- LD (HL),A (R92). -/
def execLd_atHL_A (s : State) : Host.Outcome State Fault Refusal :=
  execute (.ld8 .indHL (.reg .a)) s

/-- LD A,B (R89). -/
def execLd_A_B (s : State) : Host.Outcome State Fault Refusal :=
  execute (.ld8 (.reg .a) (.reg .b)) s

/-- LD A,C (R89). -/
def execLd_A_C (s : State) : Host.Outcome State Fault Refusal :=
  execute (.ld8 (.reg .a) (.reg .c)) s

/-- LD A,D (R89). -/
def execLd_A_D (s : State) : Host.Outcome State Fault Refusal :=
  execute (.ld8 (.reg .a) (.reg .d)) s

/-- LD A,E (R89). -/
def execLd_A_E (s : State) : Host.Outcome State Fault Refusal :=
  execute (.ld8 (.reg .a) (.reg .e)) s

/-- LD A,H (R89). -/
def execLd_A_H (s : State) : Host.Outcome State Fault Refusal :=
  execute (.ld8 (.reg .a) (.reg .h)) s

/-- LD A,L (R89). -/
def execLd_A_L (s : State) : Host.Outcome State Fault Refusal :=
  execute (.ld8 (.reg .a) (.reg .l)) s

/-- LD A,(HL) (R91). -/
def execLd_A_atHL (s : State) : Host.Outcome State Fault Refusal :=
  execute (.ld8 (.reg .a) .indHL) s

/-- LD A,A (R89). -/
def execLd_A_A (s : State) : Host.Outcome State Fault Refusal :=
  execute (.ld8 (.reg .a) (.reg .a)) s

/-- POP BC (R115). -/
def execPop_BC (s : State) : Host.Outcome State Fault Refusal :=
  execute (.pop .bc) s

/-- PUSH BC (R114). -/
def execPush_BC (s : State) : Host.Outcome State Fault Refusal :=
  execute (.push .bc) s

/-- POP DE (R115). -/
def execPop_DE (s : State) : Host.Outcome State Fault Refusal :=
  execute (.pop .de) s

/-- PUSH DE (R114). -/
def execPush_DE (s : State) : Host.Outcome State Fault Refusal :=
  execute (.push .de) s

/-- LDH (n),A (R105). -/
def execLdh_atN_A (s : State) : Host.Outcome State Fault Refusal :=
  execute (.ld8 .highImm (.reg .a)) s

/-- POP HL (R115). -/
def execPop_HL (s : State) : Host.Outcome State Fault Refusal :=
  execute (.pop .hl) s

/-- LD (C),A (R107). -/
def execLd_atC_A (s : State) : Host.Outcome State Fault Refusal :=
  execute (.ld8 .highC (.reg .a)) s

/-- PUSH HL (R114). -/
def execPush_HL (s : State) : Host.Outcome State Fault Refusal :=
  execute (.push .hl) s

/-- LD (nn),A (R103). -/
def execLd_atNN_A (s : State) : Host.Outcome State Fault Refusal :=
  execute (.ld8 .abs16 (.reg .a)) s

/-- LDH A,(n) (R104). -/
def execLdh_A_atN (s : State) : Host.Outcome State Fault Refusal :=
  execute (.ld8 (.reg .a) .highImm) s

/-- POP AF (R115). -/
def execPop_AF (s : State) : Host.Outcome State Fault Refusal :=
  execute (.pop .af) s

/-- LD A,(C) (R106). -/
def execLd_A_atC (s : State) : Host.Outcome State Fault Refusal :=
  execute (.ld8 (.reg .a) .highC) s

/-- PUSH AF (R114). -/
def execPush_AF (s : State) : Host.Outcome State Fault Refusal :=
  execute (.push .af) s

/-- LD HL,SP+e (R111). -/
def execLd_HL_SPe (s : State) : Host.Outcome State Fault Refusal :=
  execute (.ld16 .hlSPe) s

/-- LD SP,HL (R110). -/
def execLd_SP_HL (s : State) : Host.Outcome State Fault Refusal :=
  execute (.ld16 .spHL) s

/-- LD A,(nn) (R102). -/
def execLd_A_atNN (s : State) : Host.Outcome State Fault Refusal :=
  execute (.ld8 (.reg .a) .abs16) s

end Sys2Proof.Machine
end

