-- ==== Sys2Proof/Machine/Misc.lean ====
section
/-! DEFINITION. The meanings of the single-byte operations (44_misc.md) and of the illegal bytes (60_exceptions.md R167): one definition per instruction,
over the shared engine `execute`, whose arms follow the rules named here. -/

namespace Sys2Proof.Machine

/-- NOP (R148). -/
def execNop (s : State) : Host.Outcome State Fault Refusal :=
  execute (.nop) s

/-- STOP (R150). -/
def execStop (s : State) : Host.Outcome State Fault Refusal :=
  execute (.stop) s

/-- HALT (R149). -/
def execHalt (s : State) : Host.Outcome State Fault Refusal :=
  execute (.halt) s

/-- DI (R151). -/
def execDi (s : State) : Host.Outcome State Fault Refusal :=
  execute (.di) s

/-- EI (R152). -/
def execEi (s : State) : Host.Outcome State Fault Refusal :=
  execute (.ei) s

/-- An illegal byte (R76): no instruction. FATAL_DECODE with the byte, in every run state (R167; DEDUCED, assumption
log 13). -/
def execIllegal (code : Byte) (_s : State) : Host.Outcome State Fault Refusal :=
  finish (raise (.decode code false))

end Sys2Proof.Machine
end

