-- ==== Sys2Proof/Machine/Prefixed.lean ====
section
/-! DEFINITION. The meanings of the 0xCB-prefixed instructions (45_prefixed.md) and of the escape byte (R153): one definition per instruction,
over the shared engine `execute`, whose arms follow the rules named here. -/

namespace Sys2Proof.Machine

/-- The code after the escape byte at PC, as a decoded value: fetched at pc+1 and looked up in the table that
P_PREFIXED_TABLE selects, or FATAL_DECODE with the code (R153, R167). -/
def fetchPrefixed (s : State) : Except Fault Op := do
  let code ← memRead .fetch (s.pc + 1) s
  match (decode s.cfg.prefixTable code true).bind Instr.op with
  | some i => return i
  | none => raise (.decode code true)

/-- PREFIX CB at PC (R153): the code at pc+1 is fetched, decoded and executed. A step reaches the prefixed instruction
itself, since the driver decodes past the escape (R85); this is what the escape row does as a row (DEDUCED, assumption log
13). -/
def execPrefixCb (s : State) : Host.Outcome State Fault Refusal :=
  match fetchPrefixed s with
  | .ok i => execute i s
  | .error f => .fault f

/-- RLC r (R155). -/
def execRlc (t : Loc8) (s : State) : Host.Outcome State Fault Refusal :=
  execute (.cb .rlc t) s

/-- RRC r (R156). -/
def execRrc (t : Loc8) (s : State) : Host.Outcome State Fault Refusal :=
  execute (.cb .rrc t) s

/-- RL r (R157). -/
def execRl (t : Loc8) (s : State) : Host.Outcome State Fault Refusal :=
  execute (.cb .rl t) s

/-- RR r (R158). -/
def execRr (t : Loc8) (s : State) : Host.Outcome State Fault Refusal :=
  execute (.cb .rr t) s

/-- SLA r (R159). -/
def execSla (t : Loc8) (s : State) : Host.Outcome State Fault Refusal :=
  execute (.cb .sla t) s

/-- SRA r (R160). -/
def execSra (t : Loc8) (s : State) : Host.Outcome State Fault Refusal :=
  execute (.cb .sra t) s

/-- SWAP r (R161). -/
def execSwap (t : Loc8) (s : State) : Host.Outcome State Fault Refusal :=
  execute (.cb .swap t) s

/-- SRL r (R162). -/
def execSrl (t : Loc8) (s : State) : Host.Outcome State Fault Refusal :=
  execute (.cb .srl t) s

/-- BIT b,r (R163). -/
def execBit (b : Fin 8) (t : Loc8) (s : State) : Host.Outcome State Fault Refusal :=
  execute (.cb (.bit b) t) s

/-- RES b,r (R164). -/
def execRes (b : Fin 8) (t : Loc8) (s : State) : Host.Outcome State Fault Refusal :=
  execute (.cb (.res b) t) s

/-- SET b,r (R165). -/
def execSet (b : Fin 8) (t : Loc8) (s : State) : Host.Outcome State Fault Refusal :=
  execute (.cb (.set b) t) s

end Sys2Proof.Machine
end

