-- ==== Sys2Proof/Machine/Fetch.lean ====
section
/-! DEFINITION. What the step driver does around execute (30_encoding.md R85, R86): fetch, decode, and the cycle count; and
the placing of an instruction's bytes where the next step fetches. -/

namespace Sys2Proof.Machine

/-- Look a code up, or raise FATAL_DECODE with the code and the prefixed flag (R85, R167). -/
def lookup (code : Byte) (prefixed : Bool) (s : State) : Except Fault (Instr × Byte × Bool) :=
  match decode s.cfg.prefixTable code prefixed with
  | some i => .ok (i, code, prefixed)
  | none => raise (.decode code prefixed)

/-- Fetch and decode the instruction at PC (R85): the byte at PC and, after 0xCB, the code at pc+1. The answer also gives
the code and the prefixed flag, which the cycle count needs. -/
def fetchInstr (s : State) : Except Fault (Instr × Byte × Bool) := do
  let b0 ← memRead .fetch s.pc s
  if b0 = 0xCB then
    let code ← memRead .fetch (s.pc + 1) s
    lookup code true s
  else
    lookup b0 false s

/-- The cycles a step returns (R86, D19, D39): the table's count for the code plus the extra cycles, a natural number; 0
for a step of a halted or stopped core under P_HALT_STEP_CYCLES = ZERO. -/
def stepCycles (cfg : Config) (wasRunning : Bool) (code : Byte) (prefixed : Bool) (extra : Byte) : Nat :=
  if wasRunning = false ∧ cfg.haltCycles = .zero then 0
  else (cycleTable cfg.cycles code prefixed).toNat + extra.toNat

/-- Record the value the step returns (R85) in the outcome of execute. -/
def countCycles (wasRunning : Bool) (code : Byte) (prefixed : Bool)
    (o : Host.Outcome State Fault Refusal) : Host.Outcome State Fault Refusal :=
  match o with
  | .next t => .next { t with lastCycles := stepCycles t.cfg wasRunning code prefixed t.lastExtra }
  | .fault f => .fault f
  | .refused r => .refused r

/-- Write a byte where the store has a cell, and nowhere else. -/
def State.putByte (s : State) (a : Word) (v : Byte) : State :=
  if s.mapped a then s.setByte a v else s

/-- Place bytes from an address on, wrapping at 0xFFFF (R49). -/
def State.putBytes (s : State) (a : Word) : List Byte → State
  | [] => s
  | v :: rest => (s.putByte a v).putBytes (a + 1) rest

/-- A program that holds a prefixed instruction runs under P_PREFIXED_TABLE = FULL (R6); any other needs no choice. -/
def tableFor (bytes : List Byte) (cfg : Config) : Config :=
  if bytes.head? = some 0xCB then { cfg with prefixTable := .full } else cfg

end Sys2Proof.Machine
end

