-- ==== Sys2Proof/Machine/Step.lean ====
section
/-! DEFINITION. One step of the driver (30_encoding.md R85), and the placing of an instruction for the next step. -/

namespace Sys2Proof.Machine

/-- `step()` (R85): fetch and decode, whether or not the core is halted (D32); execute; commit PC; count cycles (R86). -/
def step (s : State) : Host.Outcome State Fault Refusal :=
  match fetchInstr s with
  | .ok (i, code, prefixed) => countCycles s.running code prefixed (exec i s)
  | .error f => .fault f

/-- The state with an instruction's bytes where the next step fetches, at PC (R85), its operand bytes 0. For a prefixed
instruction the table parameter is FULL, without which no prefixed instruction exists (R6, R78; DESIGN CHOICE, assumption
logs 5 and 6). -/
def State.withFetchWord (s : State) (nbits w : Nat) : State :=
  let bytes := tableBytes nbits w
  { s.putBytes s.pc bytes with cfg := tableFor bytes s.cfg }

end Sys2Proof.Machine
end

