-- ==== Sys2Proof/Machine/Frame.lean ====
section
/-! DEFINITION. The frame driver (30_encoding.md R87, 70_reset_and_hazards.md R188). `frame_step` may never return (U17),
so it runs on fuel: `unfinished` for every fuel is the run that never ends (DESIGN CHOICE, assumption log 10). -/

namespace Sys2Proof.Machine

/-- How far a frame has come. -/
inductive FrameOutcome where
  /-- frame_step returned: the cycles counted and the state. -/
  | returned (acc : Nat) (s : State)
  /-- A step raised a fatal condition: the run has ended (R171). -/
  | fault (f : Fault)
  /-- A step was refused. -/
  | refused (r : Refusal)
  /-- The fuel ran out with the budget not reached. -/
  | unfinished (acc : Nat) (s : State)
  deriving DecidableEq, Repr

/-- `while acc < budget do acc <- acc + step()` (R87), for at most `fuel` steps. -/
def frameLoop (budget : Nat) (fuel acc : Nat) (s : State) : FrameOutcome :=
  if budget ≤ acc then .returned acc s
  else
    match fuel with
    | 0 => .unfinished acc s
    | fuel + 1 =>
      match step s with
      | .next t => frameLoop budget fuel (acc + t.lastCycles) t
      | .fault f => .fault f
      | .refused r => .refused r

/-- `frame_step()` (R87): the accumulator starts at 0 in every call and is not carried over (D21). -/
def frameStep (f : FrameConfig) (fuel : Nat) (s : State) : FrameOutcome :=
  frameLoop (frameBudget f) fuel 0 s

end Sys2Proof.Machine
end

