-- ==== Sys2Proof/Machine/HostMoves.lean ====
section
/-! DEFINITION. The host's moves between steps (10_state.md R32, D35) and the boot sequence (70_reset_and_hazards.md R182).
They are no part of a step; a run with any other host action is outside the model (U15; DESIGN CHOICE, assumption
log 11). -/

namespace Sys2Proof.Machine

/-- The external un-halt (R32, R181): the chosen flags are cleared; PC and everything else stay. -/
def State.hostClear (s : State) (clearHalted clearStopped : Bool) : State :=
  { s with halted := s.halted && !clearHalted, stopped := s.stopped && !clearStopped }

/-- The loader (R11, R32, R40, R182): write the image before the first step. The image is given as the cells it sets;
every other cell keeps 0x00, and a pair whose address has no cell is not part of an image over P_MEM_SIZE cells. -/
def State.loadImage (s : State) : List (Word × Byte) → State
  | [] => s
  | (a, v) :: rest => (s.putByte a v).loadImage rest

/-- The renderer's or host's read of a cell (R32, 20_memory.md section 6): no effect on CORE. DESIGN CHOICE (assumption log
16): at an address with no cell, which is 0xFFFF under P_MEM_SIZE = 0xFFFF, it answers `none` and raises nothing. -/
def State.hostRead (s : State) (a : Word) : Option Byte :=
  if s.mapped a then some (s.byteAt a) else none

/-- Reset and boot (R182), steps 1 to 4: reset under the parameters, load the image, and under HALTED_STOPPED the host
clears both flags. The host then calls step. -/
def State.boot (cfg : Config) (image : List (Word × Byte)) : State :=
  ((State.resetWith cfg).loadImage image).hostClear true true

end Sys2Proof.Machine
end

