-- ==== Sys2Proof/Safety.lean ====
section
/-! DEFINITION. What claims are said in: the well-formed states, the runs that raise no fatal condition (60_exceptions.md
R171), the fatal conditions of an instruction in order (R172), where an operand lies and what it holds (30_encoding.md R80,
R81), and the spec's summary tables of what an instruction may write (10_state.md R20, R25; 20_memory.md R50). They restate
the spec; the machine's meanings use none of them. -/

namespace Sys2Proof.Machine

/-- The memory is in canonical form and lists only cells that exist (R31). -/
def State.wf (s : State) : Bool := s.mem.wf && s.mem.below (memBytes s.cfg.memSize)

/-- Every register and flag holds a value (R170), as after a reset with P_RESET_REGS = ZERO. -/
def State.allDefined (s : State) : Prop := s.noValue = NoValue.atReset .zero

/-- A run of `k` steps that raises no fatal condition, ending in `t`. -/
def SafeRun (k : Nat) (s t : State) : Prop := Sys2Proof.core.run k s = .next t

/-! ## Fatal conditions in order (R172) -/

/-- The first fault of a list of checks, each of which passes (`none`) or raises its fault. -/
def firstFault : List (Option Fault) → Option Fault
  | [] => none
  | none :: rest => firstFault rest
  | some f :: _ => some f

/-- What a rule says of an outcome: when every check passes, the next state `t`; otherwise the first fault (R172). -/
def Answers (o : Host.Outcome State Fault Refusal) (checks : List (Option Fault)) (t : State) : Prop :=
  (firstFault checks = none → o = .next t) ∧ ∀ f, firstFault checks = some f → o = .fault f

/-- The check of a register read (R170). -/
def State.regCheck (s : State) (r : Reg8) : Option Fault := if s.holds (.reg r) then none else some (.undef (.reg r))

/-- The check of a flag read (R170). -/
def State.flagCheck (s : State) (g : FlagName) : Option Fault :=
  if s.holds (.flag g) then none else some (.undef (.flag g))

/-- The check of a memory access (R43, R169). -/
def State.memCheck (s : State) (k : AccessKind) (a : Word) : Option Fault :=
  if s.mapped a then none else some (.mem a k)

/-- The checks of a pair read: both halves, high first; SP needs none (R170). -/
def State.pairChecks (s : State) : Reg16 → List (Option Fault)
  | .bc => [s.regCheck .b, s.regCheck .c]
  | .de => [s.regCheck .d, s.regCheck .e]
  | .hl => [s.regCheck .h, s.regCheck .l]
  | .sp => []

/-- The checks of a stack pair read; AF reads A and all four flags (R170). -/
def State.stkChecks (s : State) : StkReg → List (Option Fault)
  | .bc => s.pairChecks .bc
  | .de => s.pairChecks .de
  | .hl => s.pairChecks .hl
  | .af => [s.regCheck .a, s.flagCheck .z, s.flagCheck .n, s.flagCheck .h, s.flagCheck .c]

/-- The check of an 8-bit immediate: the fetch at pc+1 (R67, R169). -/
def State.imm8Checks (s : State) : List (Option Fault) := [s.memCheck .fetch (s.pc + 1)]

/-- The checks of a 16-bit immediate: the fetches at pc+1 and pc+2 (R69, R169). -/
def State.imm16Checks (s : State) : List (Option Fault) :=
  [s.memCheck .fetch (s.pc + 1), s.memCheck .fetch (s.pc + 2)]

/-- The checks of forming an operand's place: the registers and immediates that give the address (R80, R81, R172). -/
def State.placeChecks (s : State) : Loc8 → List (Option Fault)
  | .reg _ | .imm8 => []
  | .indBC => s.pairChecks .bc
  | .indDE => s.pairChecks .de
  | .indHL | .indHLInc | .indHLDec => s.pairChecks .hl
  | .abs16 => s.imm16Checks
  | .highImm => s.imm8Checks
  | .highC => [s.regCheck .c]

/-- The address of a memory operand (R80, R81, R70); pc+1 for n, and meaningless for a register. -/
def State.address (s : State) : Loc8 → Word
  | .indBC => s.pair .bc
  | .indDE => s.pair .de
  | .indHL | .indHLInc | .indHLDec => s.pair .hl
  | .abs16 => s.wordAt (s.pc + 1)
  | .highImm => 0xFF00 + zext16 (s.byteAt (s.pc + 1))
  | .highC => 0xFF00 + zext16 s.c
  | .imm8 | .reg _ => s.pc + 1

/-- The byte an operand gives (R80). -/
def State.operand (s : State) (t : Loc8) : Byte :=
  match t with
  | .reg r => s.reg r
  | .imm8 | .indBC | .indDE | .indHL | .indHLInc | .indHLDec | .abs16 | .highImm | .highC => s.byteAt (s.address t)

/-- The checks of an operand read (R80, R172). -/
def State.readChecks (s : State) (t : Loc8) : List (Option Fault) :=
  match t with
  | .reg r => [s.regCheck r]
  | .imm8 => s.imm8Checks
  | .indBC | .indDE | .indHL | .indHLInc | .indHLDec | .abs16 | .highImm | .highC =>
    s.placeChecks t ++ [s.memCheck .read (s.address t)]

/-- The state with a register or the byte at HL replaced: the operands of the read-modify-write forms (R73, R81). -/
def State.putOperand (s : State) (t : Loc8) (v : Byte) : State :=
  match t with
  | .reg r => s.setReg r v
  | .indHL => s.setByte (s.pair .hl) v
  | .imm8 | .indBC | .indDE | .indHLInc | .indHLDec | .abs16 | .highImm | .highC => s

/-! ## Conditions and the stack -/

/-- Whether a condition holds (R139). -/
def State.cond (s : State) : Cond → Bool
  | .nz => !s.f.z
  | .z => s.f.z
  | .nc => !s.f.c
  | .c => s.f.c
  | .always | .alwaysIe => true

/-- The checks of a condition: the flag it tests (R139, R170). -/
def State.condChecks (s : State) : Cond → List (Option Fault)
  | .nz | .z => [s.flagCheck .z]
  | .nc | .c => [s.flagCheck .c]
  | .always | .alwaysIe => []

/-- The state after a condition is evaluated: ALWAYS_IE sets ime (R139). -/
def State.afterCond (s : State) : Cond → State
  | .nz | .z | .nc | .c | .always => s
  | .alwaysIe => { s with ime := true }

/-- The checks of a push of two bytes (R112). -/
def State.pushChecks (s : State) : List (Option Fault) :=
  [s.memCheck .write (s.sp - 1), s.memCheck .write (s.sp - 2)]

/-- The checks of a pop of two bytes (R113). -/
def State.popChecks (s : State) : List (Option Fault) :=
  [s.memCheck .read s.sp, s.memCheck .read (s.sp + 1)]

/-- The state after a push of two bytes: SP two lower, the high byte at SP-1 and the low byte at SP-2 (R112). -/
def State.pushed (s : State) (w : Word) : State :=
  (({ s with sp := s.sp - 2 } : State).setByte (s.sp - 1) (hi8 w)).setByte (s.sp - 2) (lo8 w)

/-- Push a list of bytes, the first first (R112). -/
def pushAll : List Byte → State → Except Fault State
  | [], s => .ok s
  | b :: rest, s => do pushAll rest (← push8 b s)

/-- Pop `n` bytes, the first popped first (R113). -/
def popAll : Nat → State → Except Fault (List Byte × State)
  | 0, s => .ok ([], s)
  | n + 1, s => do
    let (b, s1) ← pop8 s
    let (bs, s2) ← popAll n s1
    return (b :: bs, s2)

end Sys2Proof.Machine

namespace Sys2Proof

/-! ## What an instruction may write -/

/-- Whether a register is a half of an rp pair (R21 to R23). -/
def Reg16.has : Reg16 → Reg8 → Bool
  | .bc, r => r == .b || r == .c
  | .de, r => r == .d || r == .e
  | .hl, r => r == .h || r == .l
  | .sp, _ => false

/-- Whether an access through an operand changes a register: HL for (HL+) and (HL-) (R80, R81). -/
def Loc8.moves (t : Loc8) (r : Reg8) : Bool :=
  match t with
  | .indHLInc | .indHLDec => Reg16.hl.has r
  | .reg _ | .indBC | .indDE | .indHL | .imm8 | .abs16 | .highImm | .highC => false

/-- The general registers an instruction may write, by the rules of 40_load.md to 45_prefixed.md: its destination, and HL
for (HL+) and (HL-). -/
def Op.writesReg (o : Op) (r : Reg8) : Bool :=
  match o with
  | .ld8 dst src => dst == .reg r || dst.moves r || src.moves r
  | .ld16 (.imm k) | .inc16 k | .dec16 k => k.has r
  | .ld16 .hlSPe | .add16 _ => Reg16.hl.has r
  | .pop .bc => Reg16.bc.has r
  | .pop .de => Reg16.de.has r
  | .pop .hl => Reg16.hl.has r
  | .pop .af | .daa | .cpl | .rlca | .rrca | .rla | .rra => r == .a
  | .alu .cp _ => false
  | .alu .add _ | .alu .adc _ | .alu .sub _ | .alu .sbc _ | .alu .and _ | .alu .xor _ | .alu .or _ => r == .a
  | .cb (.bit _) _ => false
  | .inc8 t | .dec8 t | .cb .rlc t | .cb .rrc t | .cb .rl t | .cb .rr t | .cb .sla t | .cb .sra t | .cb .swap t
  | .cb .srl t | .cb (.res _) t | .cb (.set _) t => t == .reg r
  | .ld16 .nnSP | .ld16 .spHL | .push _ | .scf | .ccf | .addSp | .jp _ _ | .call _ | .ret _ | .rst _
  | .nop | .halt | .stop | .di | .ei => false

/-- The flags an instruction touches: the summary table of 10_state.md section 2. -/
def Op.touches (o : Op) (g : Machine.FlagName) : Bool :=
  match o with
  | .alu _ _ | .addSp | .ld16 .hlSPe | .rlca | .rrca | .rla | .rra | .pop .af => true
  | .inc8 _ | .dec8 _ | .cb (.bit _) _ => g != .c
  | .add16 _ | .scf | .ccf => g != .z
  | .daa => g != .n
  | .cpl => g == .n || g == .h
  | .cb (.res _) _ | .cb (.set _) _ => false
  | .cb .rlc _ | .cb .rrc _ | .cb .rl _ | .cb .rr _ | .cb .sla _ | .cb .sra _ | .cb .swap _ | .cb .srl _ => true
  | .ld8 _ _ | .ld16 (.imm _) | .ld16 .nnSP | .ld16 .spHL | .push _ | .pop .bc | .pop .de | .pop .hl
  | .inc16 _ | .dec16 _ | .jp _ _ | .call _ | .ret _ | .rst _ | .nop | .halt | .stop | .di | .ei => false

/-- The instructions that write SP (R25). -/
def Op.writesSp : Op → Bool
  | .ld16 (.imm .sp) | .ld16 .spHL | .inc16 .sp | .dec16 .sp | .addSp | .push _ | .pop _ | .call _ | .ret _ | .rst _ => true
  | .ld16 (.imm .bc) | .ld16 (.imm .de) | .ld16 (.imm .hl) | .ld16 .nnSP | .ld16 .hlSPe
  | .inc16 .bc | .inc16 .de | .inc16 .hl | .dec16 .bc | .dec16 .de | .dec16 .hl
  | .ld8 _ _ | .alu _ _ | .inc8 _ | .dec8 _ | .daa | .cpl | .scf | .ccf | .rlca | .rrca | .rla | .rra
  | .add16 _ | .jp _ _ | .nop | .halt | .stop | .di | .ei | .cb _ _ => false

/-- Whether the operand is a register or n, so that writing it is no store. -/
def Loc8.isRegister : Loc8 → Bool
  | .reg _ | .imm8 => true
  | .indBC | .indDE | .indHL | .indHLInc | .indHLDec | .abs16 | .highImm | .highC => false

/-- The forms that store to memory (20_memory.md R50). -/
def Op.stores : Op → Bool
  | .ld8 dst _ => !dst.isRegister
  | .cb (.bit _) _ => false
  | .inc8 t | .dec8 t | .cb .rlc t | .cb .rrc t | .cb .rl t | .cb .rr t | .cb .sla t | .cb .sra t | .cb .swap t
  | .cb .srl t | .cb (.res _) t | .cb (.set _) t => !t.isRegister
  | .ld16 .nnSP | .push _ | .call _ | .rst _ => true
  | .ld16 (.imm _) | .ld16 .spHL | .ld16 .hlSPe | .pop _ | .alu _ _ | .daa | .cpl | .scf | .ccf
  | .rlca | .rrca | .rla | .rra | .inc16 _ | .dec16 _ | .add16 _ | .addSp | .jp _ _ | .ret _
  | .nop | .halt | .stop | .di | .ei => false

end Sys2Proof

namespace Sys2Proof.Machine

/-- The branch penalty of an instruction that runs in a state (R140). -/
def State.penalty (s : State) : Op → Nat
  | .jp cc _ => if s.cond cc then 4 else 0
  | .call cc | .ret cc => if s.cond cc then 12 else 0
  | .ld8 _ _ | .ld16 _ | .push _ | .pop _ | .alu _ _ | .inc8 _ | .dec8 _ | .daa | .cpl | .scf | .ccf
  | .rlca | .rrca | .rla | .rra | .inc16 _ | .dec16 _ | .add16 _ | .addSp | .rst _
  | .nop | .halt | .stop | .di | .ei | .cb _ _ => 0

/-! ## What is hidden when two runs are compared -/

/-- The state without its timing: the cycle parameters and the two cycle records (R185). -/
def State.eraseTiming (s : State) : State :=
  { s with cfg := { s.cfg with cycles := .reference, haltCycles := .zero }, lastExtra := 0, lastCycles := 0 }

/-- The state without ime (R27). -/
def State.eraseIme (s : State) : State := { s with ime := false }

/-- Two outcomes that stop alike, or go on in states that are equal once erased. -/
def SameUnder (erase : State → State) (o o' : Host.Outcome State Fault Refusal) : Prop :=
  match o, o' with
  | .next t, .next t' => erase t = erase t'
  | .fault f, .fault f' => f = f'
  | .refused r, .refused r' => r = r'
  | .next _, .fault _ | .next _, .refused _ | .fault _, .next _ | .fault _, .refused _ | .refused _, .next _
  | .refused _, .fault _ => False

/-! ## The loader's image -/

/-- What an image sets a cell to: its last entry for the address, and 0x00 where it has none (R11, R40). -/
def imageByte (image : List (Word × Byte)) (a : Word) : Byte :=
  image.foldl (fun old cell => if cell.1 = a then cell.2 else old) 0x00

end Sys2Proof.Machine
end

