-- ==== Sys2Proof/Certificates/Slice0/Obligations.lean ====
section
/-! DEFINITION. The statements for the provers, each `def Obligations.<Name> : Prop`. A statement about an instruction says, by
`Answers`, that `exec` answers exactly the named next state when every check passes, and the first fault otherwise; the
arithmetic is written from the rules of spec/ and not from the machine's own functions. The fixed order of the checks is the
spec's decision D22 and, among the registers one instruction reads, the model's reading of the pseudocode (assumption
log 8); the opcode values are the spec's decision D6, and what else is the spec's own decision is named at each
statement. -/

section

open Sys2Proof Sys2Proof.Machine

/-! ## Reset, boot and well-formed states -/

/-- R36: SP = 0xFFFF after reset. R39: halted and stopped take the values P_RESET_RUN selects. -/
def Obligations.ResetStackAndRunState : Prop :=
  ∀ cfg : Config,
    (State.resetWith cfg).sp = 0xFFFF ∧
    (cfg.resetRun = .running → (State.resetWith cfg).halted = false ∧ (State.resetWith cfg).stopped = false) ∧
    (cfg.resetRun = .haltedStopped → (State.resetWith cfg).halted = true ∧ (State.resetWith cfg).stopped = true) ∧
    State.reset.running = true

/-- The other reset values, each the spec's own decision or inference: PC (R35, D4), the registers and flags under ZERO and
under UNDEFINED (R37, D3), ime (R38, D5), the zero-filled memory (R40); and the model's own two cycle records, 0 by the
model's choice (assumption log 3). -/
def Obligations.ResetByDecision : Prop :=
  ∀ cfg : Config,
    (State.resetWith cfg).pc = 0x0000 ∧ (State.resetWith cfg).ime = false ∧
    (∀ a, (State.resetWith cfg).byteAt a = 0x00) ∧
    (cfg.resetRegs = .zero →
      (∀ r, readReg r (State.resetWith cfg) = .ok 0x00) ∧ ∀ g, readFlag g (State.resetWith cfg) = .ok false) ∧
    (cfg.resetRegs = .undefined →
      (∀ r, readReg r (State.resetWith cfg) = .error (.undef (.reg r))) ∧
      ∀ g, readFlag g (State.resetWith cfg) = .error (.undef (.flag g))) ∧
    (State.resetWith cfg).cfg = cfg ∧ (State.resetWith cfg).lastExtra = 0 ∧ (State.resetWith cfg).lastCycles = 0 ∧
    State.reset.cfg.resetRegs = .zero

/-- R182: after reset, the loader and (where it is needed) the host's un-halt, the core runs at 0x0000, every cell of the
store holds what the image last set it to and 0x00 where the image sets nothing, and the state is well-formed. -/
def Obligations.BootPlacesImage : Prop :=
  ∀ (cfg : Config) (image : List (Word × Byte)),
    (State.boot cfg image).running = true ∧ (State.boot cfg image).pc = 0x0000 ∧ (State.boot cfg image).sp = 0xFFFF ∧
    (State.boot cfg image).wf = true ∧ (State.boot cfg image).cfg = cfg ∧
    ∀ a, (State.boot cfg image).mapped a = true → (State.boot cfg image).byteAt a = imageByte image a

/-! ## Registers, flags and memory -/

/-- R20: the flags codec, and its two round trips. -/
def Obligations.FlagsCodec : Prop :=
  (∀ f : Flags, (encodeFlags f).toNat = b2n f.z * 0x80 + b2n f.n * 0x40 + b2n f.h * 0x20 + b2n f.c * 0x10) ∧
  (∀ b : Byte, decodeFlags b = ⟨b.getLsbD 7, b.getLsbD 6, b.getLsbD 5, b.getLsbD 4⟩) ∧
  (∀ f : Flags, decodeFlags (encodeFlags f) = f) ∧
  ∀ b : Byte, encodeFlags (decodeFlags b) = b &&& 0xF0

/-- R21 to R24: each 16-bit view is its two halves, a write of it writes the halves, and AF loses its low nibble. SP is
storage of its own. -/
def Obligations.PairViews : Prop :=
  ∀ (s : State) (w : Word),
    s.stk .bc = join s.b s.c ∧ s.stk .de = join s.d s.e ∧ s.stk .hl = join s.h s.l ∧
    s.stk .af = join s.a (encodeFlags s.f) ∧
    s.setStk .bc w = (s.setReg .b (hi8 w)).setReg .c (lo8 w) ∧
    s.setStk .de w = (s.setReg .d (hi8 w)).setReg .e (lo8 w) ∧
    s.setStk .hl w = (s.setReg .h (hi8 w)).setReg .l (lo8 w) ∧
    (s.setStk .af w).a = hi8 w ∧ (s.setStk .af w).f = decodeFlags (lo8 w) ∧
    (s.setStk .bc w).stk .bc = w ∧ (s.setStk .de w).stk .de = w ∧ (s.setStk .hl w).stk .hl = w ∧
    (s.setStk .af w).stk .af = w &&& 0xFFF0 ∧
    (∀ r, s.pair r = match r with | .bc => s.stk .bc | .de => s.stk .de | .hl => s.stk .hl | .sp => s.sp) ∧
    (w.toNat = (hi8 w).toNat * 256 + (lo8 w).toNat)

/-- R41 to R43: a read returns the cell's byte, a write sets that cell and nothing else, no address is read-only, every
address has a cell under the full size, and under the short size the one address 0xFFFF has none and faults, with the kind
of access in the record (the spec's decision D37). That the memory is in canonical form, and stays so, is the model's
own (assumption log 14); `StepKeepsWellFormed` and `BootPlacesImage` give it. -/
def Obligations.MemoryReadAfterWrite : Prop :=
  ∀ (s : State) (a : Word) (k : AccessKind) (v : Byte), s.mem.wf = true →
    (s.cfg.memSize = .full → s.mapped a = true) ∧
    (s.cfg.memSize = .short → (s.mapped a = true ↔ a ≠ 0xFFFF)) ∧
    (s.mapped a = true → memRead k a s = .ok (s.byteAt a) ∧
      ∃ t, memWrite a v s = .ok t ∧ t = { s with mem := t.mem } ∧ memRead k a t = .ok v ∧
        t.mem.wf = true ∧ ∀ x, x ≠ a → t.byteAt x = s.byteAt x) ∧
    (s.mapped a = false → memRead k a s = .error (.mem a k) ∧ memWrite a v s = .error (.mem a .write))

/-- R44 to R49, the spec's decisions D7 and D8: a word in memory has its low byte at the lower address, the second address
wraps past 0xFFFF, and no alignment is asked for. -/
def Obligations.WordsLittleEndian : Prop :=
  ∀ (s : State) (a v : Word) (k : AccessKind), s.mem.wf = true → s.mapped a = true → s.mapped (a + 1) = true →
    memRead16 k a s = .ok (BitVec.ofNat 16 ((s.byteAt (a + 1)).toNat * 256 + (s.byteAt a).toNat)) ∧
    ∃ t, memWrite16 a v s = .ok t ∧ (t.byteAt a).toNat = v.toNat % 256 ∧
      (t.byteAt (a + 1)).toNat = v.toNat / 256 ∧ (∀ x, x ≠ a → x ≠ a + 1 → t.byteAt x = s.byteAt x) ∧
      memRead16 k a t = .ok v

/-- R112 and R113: a push lowers SP before each byte and puts the high byte above the low byte; a pop takes the low byte
first; pop16 after push16 restores the value and SP; and any number of pushed bytes, up to the size of the address space,
come back last first with SP as it was. -/
def Obligations.StackLifo : Prop :=
  (∀ (s : State) (b : Byte), s.mapped (s.sp - 1) = true →
    push8 b s = .ok (({ s with sp := s.sp - 1 } : State).setByte (s.sp - 1) b)) ∧
  (∀ s : State, s.mapped s.sp = true → pop8 s = .ok (s.byteAt s.sp, { s with sp := s.sp + 1 })) ∧
  (∀ (s t : State) (v : Word), s.mem.wf = true → push16 v s = .ok t →
    t.sp = s.sp - 2 ∧ t.byteAt t.sp = lo8 v ∧ t.byteAt (t.sp + 1) = hi8 v ∧ t = { s with sp := t.sp, mem := t.mem } ∧
    pop16 t = .ok (v, { t with sp := s.sp })) ∧
  ∀ (bs : List Byte) (s t : State), s.mem.wf = true → bs.length ≤ 0x10000 → pushAll bs s = .ok t →
    popAll bs.length t = .ok (bs.reverse, { t with sp := s.sp })

/-! ## Encoding and decoding -/

/-- Decode and encode agree (R61, R72 to R75, R154): for every well-formed instruction, with every operand and whatever
bytes follow it, the decoder reads its encoding as that instruction. -/
def Obligations.DecodeEncodeRoundTrip : Prop :=
  ∀ (i : Instr) (rest : List Byte), i.wf = true → decodeBytes .full (encode i ++ rest) = .ok i

/-- No two byte strings are one instruction, and nothing decodes but encodings (R73, R75, R78, R154): what the decoder gives
is well-formed and is the encoding it read; under STUB it is never a prefixed instruction. -/
def Obligations.DecodedIsEncoded : Prop :=
  ∀ (tbl : PrefixTable) (bytes : List Byte) (i : Instr), decodeBytes tbl bytes = .ok i →
    i.wf = true ∧ (∃ rest, bytes = encode i ++ rest) ∧ (tbl = .stub → ∀ op t, i.op ≠ some (.cb op t))

/-- R75, R76, R77 (with the spec's decisions D6, D23, D24 on the byte values): the opcode map as a table and the same map by
fields agree on every byte; the eleven bytes and the escape byte, and no others, have no instruction; and the prefixed
space is empty under STUB (R78) and total under FULL (R154, D16), by fields. -/
def Obligations.DecoderTables : Prop :=
  (∀ (tbl : PrefixTable) (b : Byte), (decode tbl b false).bind Instr.op = decodeFields b) ∧
  (∀ (tbl : PrefixTable) (b : Byte), decode tbl b false = none ↔
    b ∈ [0xD3, 0xDB, 0xDD, 0xE3, 0xE4, 0xEB, 0xEC, 0xED, 0xF4, 0xFC, 0xFD, 0xCB]) ∧
  (∀ code : Byte, decode .stub code true = none) ∧
  ∀ code : Byte, ∃ i, decode .full code true = some i ∧
    i.op = some (.cb
      (if code.toNat / 64 = 1 then .bit (Fin.ofNat 8 (code.toNat / 8 % 8))
       else if code.toNat / 64 = 2 then .res (Fin.ofNat 8 (code.toNat / 8 % 8))
       else if code.toNat / 64 = 3 then .set (Fin.ofNat 8 (code.toNat / 8 % 8))
       else [CbOp.rlc, .rrc, .rl, .rr, .sla, .sra, .swap, .srl].getD (code.toNat / 8) .srl)
      ([Loc8.reg .b, .reg .c, .reg .d, .reg .e, .reg .h, .reg .l, .indHL, .reg .a].getD (code.toNat % 8) .imm8))

/-- A few words written out from the encodings of 40_load.md to 45_prefixed.md, one or two of each family. -/
def Obligations.DecodeSampleWords : Prop :=
  decodeBytes .stub [0b01111000] = .ok .ld_A_B ∧ decodeBytes .stub [0b00111110, 0x42] = .ok .ld_A_n ∧
  decodeBytes .stub [0b00100010] = .ok .ld_atHLi_A ∧ decodeBytes .stub [0b11110101] = .ok .push_AF ∧
  decodeBytes .stub [0b10000000] = .ok .add_A_B ∧ decodeBytes .stub [0b11111110, 0x45] = .ok .cp_A_n ∧
  decodeBytes .stub [0b00110101] = .ok .dec_atHL ∧ decodeBytes .stub [0b00100111] = .ok .daa ∧
  decodeBytes .stub [0b00111001] = .ok .add_HL_SP ∧ decodeBytes .stub [0b11101000, 0x08] = .ok .add_SP_e ∧
  decodeBytes .stub [0b00100000, 0xFC] = .ok .jr_NZ_e ∧ decodeBytes .stub [0b11011001] = .ok .reti ∧
  decodeBytes .stub [0b11101111] = .ok .rst_28h ∧ decodeBytes .stub [0b01110110] = .ok .halt ∧
  decodeBytes .full [0xCB, 0b01111100] = .ok (.bit 7 (.reg .h)) ∧
  decodeBytes .full [0xCB, 0b00000110] = .ok (.rlc .indHL) ∧
  decodeBytes .stub [0xCB, 0b01111100] = .error (.stubTable 0x7C) ∧
  decodeBytes .stub [0xD3] = .error (.illegalOpcode 0xD3)

/-! ## The step -/

/-- A step runs the decoded instruction (R85, with the spec's decision D32 that a halted step decodes too): when the byte at
PC, or after 0xCB the byte at pc+1, decodes to i, step is exec of i, with the cycle count recorded and nothing else
added. -/
def Obligations.StepRunsDecoded : Prop :=
  ∀ (s : State) (i : Instr) (code : Byte) (prefixed : Bool),
    s.mapped s.pc = true →
    (prefixed = false → s.byteAt s.pc ≠ 0xCB ∧ code = s.byteAt s.pc) →
    (prefixed = true → s.byteAt s.pc = 0xCB ∧ s.mapped (s.pc + 1) = true ∧ code = s.byteAt (s.pc + 1)) →
    decode s.cfg.prefixTable code prefixed = some i →
    (∀ t, exec i s = .next t →
      step s = .next { t with lastCycles := stepCycles t.cfg s.running code prefixed t.lastExtra }) ∧
    (∀ f, exec i s = .fault f → step s = .fault f)

/-- R85, R153, R167 and steps 1 to 3 of R172: what a step does before it executes, in any run state. The byte at PC that
has no cell, the code byte after 0xCB that has none, and a code with no instruction each end the run, in this order, with
the record of R166 (the spec's decisions D22, D32 and D37). -/
def Obligations.StepFetchAndDecodeFaults : Prop :=
  ∀ s : State,
    (s.mapped s.pc = false → step s = .fault (.mem s.pc .fetch)) ∧
    (s.mapped s.pc = true → s.byteAt s.pc = 0xCB →
      (s.mapped (s.pc + 1) = false → step s = .fault (.mem (s.pc + 1) .fetch)) ∧
      (s.mapped (s.pc + 1) = true → s.cfg.prefixTable = .stub →
        step s = .fault (.decode (s.byteAt (s.pc + 1)) true))) ∧
    (s.mapped s.pc = true →
      s.byteAt s.pc ∈ [0xD3, 0xDB, 0xDD, 0xE3, 0xE4, 0xEB, 0xEC, 0xED, 0xF4, 0xFC, 0xFD] →
      step s = .fault (.decode (s.byteAt s.pc) false)) ∧
    ∀ code prefixed, step s = .fault (.decode code prefixed) →
      (prefixed = true ∧ s.byteAt s.pc = 0xCB ∧ code = s.byteAt (s.pc + 1) ∧ s.cfg.prefixTable = .stub) ∨
      (prefixed = false ∧ code = s.byteAt s.pc ∧
        code ∈ [0xD3, 0xDB, 0xDD, 0xE3, 0xE4, 0xEB, 0xEC, 0xED, 0xF4, 0xFC, 0xFD])

/-- R30 and R82: the core runs when it is neither halted nor stopped, and the two flags are independent; otherwise execute
changes no state and returns (pc, 0), which leaves only the record of the extra cycles at 0. -/
def Obligations.HaltedExecuteIsNoOp : Prop :=
  (∀ s : State, s.running = true ↔ s.halted = false ∧ s.stopped = false) ∧
  (∀ x y : Bool, ∃ s : State, s.halted = x ∧ s.stopped = y) ∧
  (∀ (o : Op) (s : State), s.running = false → execute o s = .next { s with lastExtra := 0 }) ∧
  ∀ (i : Instr) (o : Op) (s : State), i.op = some o → s.running = false → exec i s = .next { s with lastExtra := 0 }

/-- R181: a low-power state is entered by HALT and by STOP; while it lasts, every step that fetches and decodes leaves all
of the machine as it was; and only the host's clear leaves it, at the same PC. -/
def Obligations.LowPowerSteps : Prop :=
  (∀ s : State, s.running = true →
    (∃ t, exec .halt s = .next t ∧ t.halted = true ∧ t.running = false ∧ t.pc = s.pc + 1) ∧
    ∃ t, exec .stop s = .next t ∧ t.stopped = true ∧ t.running = false ∧
      t.pc = s.pc + (match s.cfg.stopLen with | .one => 1 | .two => 2)) ∧
  (∀ s t : State, s.running = false → step s = .next t →
    t = { s with lastExtra := t.lastExtra, lastCycles := t.lastCycles } ∧ t.lastExtra = 0 ∧ t.running = false) ∧
  (∀ (s : State) (i : Instr), s.running = false → s.mapped s.pc = true → s.byteAt s.pc ≠ 0xCB →
    decode s.cfg.prefixTable (s.byteAt s.pc) false = some i → ∃ t, step s = .next t) ∧
  ∀ s : State, (s.hostClear true true).running = true ∧
    s.hostClear true true = { s with halted := false, stopped := false }

/-- R86 (with the spec's decisions D19 and D39) and R7: a running step counts the table's entry for the code after any
escape byte plus the extra cycles; a step of a core that is not running counts the table's entry under TABLE and 0 under
ZERO; and the one entry the source fixes is 4 in every table. -/
def Obligations.StepCycles : Prop :=
  ∀ s t : State, step s = .next t →
    (s.running = true → t.lastCycles =
      (if s.byteAt s.pc = 0xCB then (cycleTable s.cfg.cycles (s.byteAt (s.pc + 1)) true).toNat
       else (cycleTable s.cfg.cycles (s.byteAt s.pc) false).toNat) + t.lastExtra.toNat) ∧
    (s.running = false → s.cfg.haltCycles = .zero → t.lastCycles = 0) ∧
    (s.running = false → s.cfg.haltCycles = .table → t.lastCycles =
      (if s.byteAt s.pc = 0xCB then (cycleTable s.cfg.cycles (s.byteAt (s.pc + 1)) true).toNat
       else (cycleTable s.cfg.cycles (s.byteAt s.pc) false).toNat)) ∧
    (s.running = true → s.byteAt s.pc = 0x00 → t.lastCycles = 4)

/-- R140 (with the spec's decision D18 for the forms the source does not list): the extra cycles an instruction returns are
4 for a taken JP of any form, 12 for a taken CALL, RET or RETI, and 0 for everything else. -/
def Obligations.BranchPenalty : Prop :=
  ∀ (i : Instr) (o : Op) (s t : State), i.op = some o → s.running = true → exec i s = .next t →
    t.lastExtra.toNat = s.penalty o

/-- R187, from the reference table of R186 (general knowledge): the totals of the control transfers, each conditional form
under both values of its flag, and the largest step. -/
def Obligations.ReferenceTotals : Prop :=
  ∀ s t : State, s.cfg.cycles = .reference → s.running = true → step s = .next t →
    (s.byteAt s.pc = 0xC3 → t.lastCycles = 20) ∧ (s.byteAt s.pc = 0x18 → t.lastCycles = 16) ∧
    (s.byteAt s.pc = 0xE9 → t.lastCycles = 8) ∧ (s.byteAt s.pc = 0xCD → t.lastCycles = 36) ∧
    (s.byteAt s.pc = 0xC9 → t.lastCycles = 28) ∧ (s.byteAt s.pc = 0xD9 → t.lastCycles = 28) ∧
    (s.byteAt s.pc ∈ [0xC7, 0xCF, 0xD7, 0xDF, 0xE7, 0xEF, 0xF7, 0xFF] → t.lastCycles = 16) ∧
    (s.byteAt s.pc = 0xC2 → t.lastCycles = if s.f.z then 12 else 16) ∧
    (s.byteAt s.pc = 0xCA → t.lastCycles = if s.f.z then 16 else 12) ∧
    (s.byteAt s.pc = 0xD2 → t.lastCycles = if s.f.c then 12 else 16) ∧
    (s.byteAt s.pc = 0xDA → t.lastCycles = if s.f.c then 16 else 12) ∧
    (s.byteAt s.pc = 0x20 → t.lastCycles = if s.f.z then 8 else 12) ∧
    (s.byteAt s.pc = 0x28 → t.lastCycles = if s.f.z then 12 else 8) ∧
    (s.byteAt s.pc = 0x30 → t.lastCycles = if s.f.c then 8 else 12) ∧
    (s.byteAt s.pc = 0x38 → t.lastCycles = if s.f.c then 12 else 8) ∧
    (s.byteAt s.pc = 0xC4 → t.lastCycles = if s.f.z then 12 else 24) ∧
    (s.byteAt s.pc = 0xCC → t.lastCycles = if s.f.z then 24 else 12) ∧
    (s.byteAt s.pc = 0xD4 → t.lastCycles = if s.f.c then 12 else 24) ∧
    (s.byteAt s.pc = 0xDC → t.lastCycles = if s.f.c then 24 else 12) ∧
    (s.byteAt s.pc = 0xC0 → t.lastCycles = if s.f.z then 8 else 20) ∧
    (s.byteAt s.pc = 0xC8 → t.lastCycles = if s.f.z then 20 else 8) ∧
    (s.byteAt s.pc = 0xD0 → t.lastCycles = if s.f.c then 8 else 20) ∧
    (s.byteAt s.pc = 0xD8 → t.lastCycles = if s.f.c then 20 else 8) ∧
    t.lastCycles ≤ 36

/-- R87 and R188 (with the spec's decision D21): under the reference table, a frame that returns has counted at least its
budget and less than the budget plus the largest step, and more fuel does not change what it returns. -/
def Obligations.FrameBudget : Prop :=
  ∀ (f : FrameConfig) (fuel acc : Nat) (s t : State), s.cfg.cycles = .reference →
    frameStep f fuel s = .returned acc t →
    f.clockHz * f.frameUs / 1000000 ≤ acc ∧ acc < f.clockHz * f.frameUs / 1000000 + 36 ∧
    ∀ more, frameStep f (fuel + more) s = .returned acc t

/-- R87, R188 and U17: a frame of a core that is not running, at a byte that decodes. Under ZERO it never ends, whatever
fuel it is given; under TABLE at a NOP byte it takes a quarter of the budget in steps, rounded up, and returns four times
that. -/
def Obligations.FrameWhileHalted : Prop :=
  ∀ (f : FrameConfig) (s : State), s.running = false → s.mapped s.pc = true → s.byteAt s.pc = 0x00 →
    (s.cfg.haltCycles = .zero → 0 < frameBudget f → ∀ fuel, ∃ t, frameStep f fuel s = .unfinished 0 t) ∧
    (s.cfg.haltCycles = .table → ∀ fuel, (frameBudget f + 3) / 4 ≤ fuel →
      ∃ t, frameStep f fuel s = .returned (4 * ((frameBudget f + 3) / 4)) t ∧ t.pc = s.pc)

/-! ## Fatal conditions and the whole machine -/

/-- R84 and R168: an operand combination that R73 does not admit ends the run with its record before anything else is
looked at; what the decoder gives is always admitted, and no step ever raises this fault. -/
def Obligations.OperandFault : Prop :=
  (∀ (o : Op) (s : State), s.running = true → o.admitted = false → execute o s = .fault (.operand o)) ∧
  (∀ (i : Instr) (o : Op) (s : State), i.op = some o → s.running = true → o.admitted = false →
    exec i s = .fault (.operand o)) ∧
  (∀ (tbl : PrefixTable) (code : Byte) (prefixed : Bool) (i : Instr), decode tbl code prefixed = some i →
    ∃ o, i.op = some o ∧ o.admitted = true) ∧
  (∀ (s : State) (o : Op), step s ≠ .fault (.operand o)) ∧
  ∀ d s : Loc8, (Op.ld8 d s).admitted = true ↔
    (∃ r r', d = .reg r ∧ s = .reg r') ∨ (∃ r, d = .reg r ∧ s = .imm8) ∨ (∃ r, d = .reg r ∧ s = .indHL) ∨
    (∃ r, d = .indHL ∧ s = .reg r) ∨ (d = .indHL ∧ s = .imm8) ∨
    (d = .reg .a ∧ s ∈ [.indBC, .indDE, .indHLInc, .indHLDec, .abs16, .highImm, .highC]) ∨
    (d ∈ [.indBC, .indDE, .indHLInc, .indHLDec, .abs16, .highImm, .highC] ∧ s = .reg .a)

/-- R43 and R169: FATAL_MEM is raised for the address 0xFFFF under the short store, and never otherwise. -/
def Obligations.MemoryFaultOnlyAtTop : Prop :=
  ∀ (s : State) (a : Word) (k : AccessKind), step s = .fault (.mem a k) → a = 0xFFFF ∧ s.cfg.memSize = .short

/-- R170 (with the spec's decision D36): a step raises FATAL_UNDEF only for a register or flag that holds no value, so never
where every register holds one; and what holds a value goes on holding one. -/
def Obligations.UndefinedReads : Prop :=
  (∀ (s : State) (n : RegName), step s = .fault (.undef n) → s.holds n = false) ∧
  (∀ (s : State) (n : RegName), s.allDefined → step s ≠ .fault (.undef n)) ∧
  (∀ (s t : State) (n : RegName), step s = .next t → s.holds n = true → t.holds n = true) ∧
  ∀ s t : State, step s = .next t → s.allDefined → t.allDefined

/-- Every instruction completes (R83, R176): with the full store, no run-state flag set and every register holding a value,
exec of every well-formed instruction, and of the escape byte under the full prefixed table, answers a next state, in which
every register still holds a value and the parameters are the same. That the escape byte's row has a meaning of its own is
the model's reading (assumption log 13). -/
def Obligations.EveryInstructionCompletes : Prop :=
  ∀ (i : Instr) (s : State), s.running = true → s.cfg.memSize = .full → s.allDefined →
    (i.wf = true ∨ (i = .prefixCb ∧ s.cfg.prefixTable = .full)) →
    ∃ t, exec i s = .next t ∧ t.allDefined ∧ t.cfg = s.cfg

/-- No step and no instruction is ever refused: each goes on or ends the run with one of the four fatal conditions
(R166). -/
def Obligations.NothingRefused : Prop :=
  (∀ (i : Instr) (s : State) (r : Refusal), exec i s ≠ .refused r) ∧
  (∀ (s : State) (r : Refusal), step s ≠ .refused r) ∧
  ∀ f : Fault, f.code = 1 ∨ f.code = 2 ∨ f.code = 3 ∨ f.code = 4

/-- Every step keeps the state well-formed: the memory's canonical form, only cells that exist, and the parameters
themselves (R3, R31, R42). -/
def Obligations.StepKeepsWellFormed : Prop :=
  ∀ s t : State, s.wf = true → step s = .next t → t.wf = true ∧ t.cfg = s.cfg

/-- R185: two states that differ only in timing (the cycle table, the halted-step rule, the cycle records) step alike: both
raise the same fault, or both go on in states that differ only in timing. -/
def Obligations.TimingHasNoEffect : Prop :=
  ∀ s s' : State, s.eraseTiming = s'.eraseTiming → SameUnder State.eraseTiming (step s) (step s')

/-- R27: EI writes true, DI writes false and RETI writes true; no other instruction writes ime, and none reads it: two
states that differ only in ime execute, and step, alike. -/
def Obligations.ImeHasNoEffect : Prop :=
  (∀ s s' : State, s.eraseIme = s'.eraseIme →
    (∀ i, SameUnder State.eraseIme (exec i s) (exec i s')) ∧ SameUnder State.eraseIme (step s) (step s')) ∧
  ∀ (i : Instr) (o : Op) (s t : State), i.op = some o → s.running = true → exec i s = .next t →
    (i = .ei ∨ i = .reti → t.ime = true) ∧ (i = .di → t.ime = false) ∧
    (i ≠ .ei → i ≠ .reti → i ≠ .di → t.ime = s.ime)

/-- R28 and R29: HALT sets halted and STOP sets stopped; no instruction clears either and no other sets one; only the host
clears them. That the host may clear one without the other is the model's choice (assumption log 11). -/
def Obligations.RunFlagOwners : Prop :=
  (∀ (i : Instr) (o : Op) (s t : State), i.op = some o → exec i s = .next t →
    t.halted = (s.halted || (s.running && decide (i = .halt))) ∧
    t.stopped = (s.stopped || (s.running && decide (i = .stop)))) ∧
  (∀ s : State, s.running = true → (∃ t, exec .halt s = .next t ∧ t.halted = true) ∧
    ∃ t, exec .stop s = .next t ∧ t.stopped = true) ∧
  ∀ (s : State) (x y : Bool), (s.hostClear x y).halted = (s.halted && !x) ∧ (s.hostClear x y).stopped = (s.stopped && !y)

/-! ## Loads and stores (40_load.md) -/

/-- R89, R90, R91: LD r,r', LD r,n and LD r,(HL). The destination takes the byte; PC moves past 1, 2 and 1 bytes; nothing
else changes. LD H,(HL) and LD L,(HL) form the address first. -/
def Obligations.LdRegister : Prop :=
  ∀ (i : Instr) (rd rs : Reg8) (s : State), s.running = true →
    (i.op = some (.ld8 (.reg rd) (.reg rs)) →
      Answers (exec i s) [s.regCheck rs] ((s.setReg rd (s.reg rs)).commit (s.pc + 1) 0)) ∧
    (i.op = some (.ld8 (.reg rd) .imm8) →
      Answers (exec i s) [s.memCheck .fetch (s.pc + 1)]
        ((s.setReg rd (s.byteAt (s.pc + 1))).commit (s.pc + 2) 0)) ∧
    (i.op = some (.ld8 (.reg rd) .indHL) →
      Answers (exec i s) [s.regCheck .h, s.regCheck .l, s.memCheck .read (join s.h s.l)]
        ((s.setReg rd (s.byteAt (join s.h s.l))).commit (s.pc + 1) 0))

/-- R94, R95, R98, R99, R102, R104, R106: the loads of A from memory, by address. (HL+) and (HL-) change HL after the
access, wrapping (the spec's decision D33). -/
def Obligations.LdAccumulator : Prop :=
  ∀ s : State, s.running = true →
    Answers (exec .ld_A_atBC s) [s.regCheck .b, s.regCheck .c, s.memCheck .read (join s.b s.c)]
      ((s.setReg .a (s.byteAt (join s.b s.c))).commit (s.pc + 1) 0) ∧
    Answers (exec .ld_A_atDE s) [s.regCheck .d, s.regCheck .e, s.memCheck .read (join s.d s.e)]
      ((s.setReg .a (s.byteAt (join s.d s.e))).commit (s.pc + 1) 0) ∧
    Answers (exec .ld_A_atHLi s) [s.regCheck .h, s.regCheck .l, s.memCheck .read (join s.h s.l)]
      (((s.setReg .a (s.byteAt (join s.h s.l))).setPair .hl
        (BitVec.ofNat 16 ((join s.h s.l).toNat + 1))).commit (s.pc + 1) 0) ∧
    Answers (exec .ld_A_atHLd s) [s.regCheck .h, s.regCheck .l, s.memCheck .read (join s.h s.l)]
      (((s.setReg .a (s.byteAt (join s.h s.l))).setPair .hl
        (BitVec.ofInt 16 ((join s.h s.l).toNat - 1))).commit (s.pc + 1) 0) ∧
    Answers (exec .ld_A_atNN s)
      [s.memCheck .fetch (s.pc + 1), s.memCheck .fetch (s.pc + 2), s.memCheck .read (s.wordAt (s.pc + 1))]
      ((s.setReg .a (s.byteAt (s.wordAt (s.pc + 1)))).commit (s.pc + 3) 0) ∧
    Answers (exec .ldh_A_atN s)
      [s.memCheck .fetch (s.pc + 1), s.memCheck .read (join 0xFF (s.byteAt (s.pc + 1)))]
      ((s.setReg .a (s.byteAt (join 0xFF (s.byteAt (s.pc + 1))))).commit (s.pc + 2) 0) ∧
    Answers (exec .ld_A_atC s) [s.regCheck .c, s.memCheck .read (join 0xFF s.c)]
      ((s.setReg .a (s.byteAt (join 0xFF s.c))).commit (s.pc + 1) 0)

/-- R92, R93, R96, R97, R100, R101, R103, R105, R107: the byte stores. LD (HL),n reads n first (D22); (HL+) and (HL-) change
HL after the store (the spec's decision D33). That the registers of the address are read before the source register is
the model's reading of the pseudocode (assumption log 8). -/
def Obligations.ByteStores : Prop :=
  ∀ s : State, s.running = true →
    (∀ (i : Instr) (r : Reg8), i.op = some (.ld8 .indHL (.reg r)) →
      Answers (exec i s) [s.regCheck .h, s.regCheck .l, s.regCheck r, s.memCheck .write (join s.h s.l)]
        ((s.setByte (join s.h s.l) (s.reg r)).commit (s.pc + 1) 0)) ∧
    Answers (exec .ld_atHL_n s)
      [s.memCheck .fetch (s.pc + 1), s.regCheck .h, s.regCheck .l, s.memCheck .write (join s.h s.l)]
      ((s.setByte (join s.h s.l) (s.byteAt (s.pc + 1))).commit (s.pc + 2) 0) ∧
    Answers (exec .ld_atBC_A s) [s.regCheck .b, s.regCheck .c, s.regCheck .a, s.memCheck .write (join s.b s.c)]
      ((s.setByte (join s.b s.c) s.a).commit (s.pc + 1) 0) ∧
    Answers (exec .ld_atDE_A s) [s.regCheck .d, s.regCheck .e, s.regCheck .a, s.memCheck .write (join s.d s.e)]
      ((s.setByte (join s.d s.e) s.a).commit (s.pc + 1) 0) ∧
    Answers (exec .ld_atHLi_A s) [s.regCheck .h, s.regCheck .l, s.regCheck .a, s.memCheck .write (join s.h s.l)]
      (((s.setByte (join s.h s.l) s.a).setPair .hl
        (BitVec.ofNat 16 ((join s.h s.l).toNat + 1))).commit (s.pc + 1) 0) ∧
    Answers (exec .ld_atHLd_A s) [s.regCheck .h, s.regCheck .l, s.regCheck .a, s.memCheck .write (join s.h s.l)]
      (((s.setByte (join s.h s.l) s.a).setPair .hl
        (BitVec.ofInt 16 ((join s.h s.l).toNat - 1))).commit (s.pc + 1) 0) ∧
    Answers (exec .ld_atNN_A s)
      [s.memCheck .fetch (s.pc + 1), s.memCheck .fetch (s.pc + 2), s.regCheck .a,
        s.memCheck .write (s.wordAt (s.pc + 1))]
      ((s.setByte (s.wordAt (s.pc + 1)) s.a).commit (s.pc + 3) 0) ∧
    Answers (exec .ldh_atN_A s)
      [s.memCheck .fetch (s.pc + 1), s.regCheck .a, s.memCheck .write (join 0xFF (s.byteAt (s.pc + 1)))]
      ((s.setByte (join 0xFF (s.byteAt (s.pc + 1))) s.a).commit (s.pc + 2) 0) ∧
    Answers (exec .ld_atC_A s) [s.regCheck .c, s.regCheck .a, s.memCheck .write (join 0xFF s.c)]
      ((s.setByte (join 0xFF s.c) s.a).commit (s.pc + 1) 0)

/-- R108 and R110: LD rr,nn and LD SP,HL. -/
def Obligations.LdPair : Prop :=
  ∀ (i : Instr) (k : Reg16) (s : State), s.running = true →
    (i.op = some (.ld16 (.imm k)) →
      Answers (exec i s) [s.memCheck .fetch (s.pc + 1), s.memCheck .fetch (s.pc + 2)]
        ((s.setPair k (join (s.byteAt (s.pc + 2)) (s.byteAt (s.pc + 1)))).commit (s.pc + 3) 0)) ∧
    Answers (exec .ld_SP_HL s) [s.regCheck .h, s.regCheck .l]
      (({ s with sp := join s.h s.l } : State).commit (s.pc + 1) 0)

/-- R109: LD (nn),SP stores the low byte of SP at nn and the high byte at nn+1, wrapping (the spec's decisions D7 and
D8). -/
def Obligations.LdStackPointerStore : Prop :=
  ∀ s : State, s.running = true →
    Answers (exec .ld_atNN_SP s)
      [s.memCheck .fetch (s.pc + 1), s.memCheck .fetch (s.pc + 2), s.memCheck .write (s.wordAt (s.pc + 1)),
        s.memCheck .write (s.wordAt (s.pc + 1) + 1)]
      (((s.setByte (s.wordAt (s.pc + 1)) (BitVec.ofNat 8 (s.sp.toNat % 256))).setByte (s.wordAt (s.pc + 1) + 1)
        (BitVec.ofNat 8 (s.sp.toNat / 256))).commit (s.pc + 3) 0)

/-- R111 and R138: LD HL,SP+e and ADD SP,e. The offset is signed and the sum wraps; Z and N are cleared, and H and C come
from the unsigned low-byte sum (the spec's decision D13). -/
def Obligations.StackPointerOffset : Prop :=
  ∀ (s : State) (u : Nat) (e : Int), s.running = true → u = (s.byteAt (s.pc + 1)).toNat →
    e = (if u < 128 then (u : Int) else (u : Int) - 256) →
    Answers (exec .ld_HL_SPe s) [s.memCheck .fetch (s.pc + 1)]
      (((s.setPair .hl (BitVec.ofInt 16 (s.sp.toNat + e))).setFlags
        ⟨some false, some false, some (decide (s.sp.toNat % 16 + u % 16 > 0x0F)),
          some (decide (s.sp.toNat % 256 + u > 0xFF))⟩).commit (s.pc + 2) 0) ∧
    Answers (exec .add_SP_e s) [s.memCheck .fetch (s.pc + 1)]
      ((({ s with sp := BitVec.ofInt 16 (s.sp.toNat + e) } : State).setFlags
        ⟨some false, some false, some (decide (s.sp.toNat % 16 + u % 16 > 0x0F)),
          some (decide (s.sp.toNat % 256 + u > 0xFF))⟩).commit (s.pc + 2) 0)

/-- R114 and R115: PUSH rr and POP rr. PUSH AF needs A and all four flags; POP AF writes A and all four flags from bits 7
to 4 of the low byte. -/
def Obligations.PushPop : Prop :=
  ∀ (i : Instr) (k : StkReg) (s : State), s.running = true →
    (i.op = some (.push k) →
      Answers (exec i s)
        ((match k with
          | .bc => [s.regCheck .b, s.regCheck .c]
          | .de => [s.regCheck .d, s.regCheck .e]
          | .hl => [s.regCheck .h, s.regCheck .l]
          | .af => [s.regCheck .a, s.flagCheck .z, s.flagCheck .n, s.flagCheck .h, s.flagCheck .c]) ++
          [s.memCheck .write (s.sp - 1), s.memCheck .write (s.sp - 2)])
        (((({ s with sp := s.sp - 2 } : State).setByte (s.sp - 1)
            (match k with | .bc => s.b | .de => s.d | .hl => s.h | .af => s.a)).setByte (s.sp - 2)
            (match k with | .bc => s.c | .de => s.e | .hl => s.l | .af => encodeFlags s.f)).commit (s.pc + 1) 0)) ∧
    (i.op = some (.pop k) →
      Answers (exec i s) [s.memCheck .read s.sp, s.memCheck .read (s.sp + 1)]
        ((match k with
          | .bc => (({ s with sp := s.sp + 2 } : State).setReg .b (s.byteAt (s.sp + 1))).setReg .c (s.byteAt s.sp)
          | .de => (({ s with sp := s.sp + 2 } : State).setReg .d (s.byteAt (s.sp + 1))).setReg .e (s.byteAt s.sp)
          | .hl => (({ s with sp := s.sp + 2 } : State).setReg .h (s.byteAt (s.sp + 1))).setReg .l (s.byteAt s.sp)
          | .af => (({ s with sp := s.sp + 2 } : State).setReg .a (s.byteAt (s.sp + 1))).setFlags
              ⟨some ((s.byteAt s.sp).getLsbD 7), some ((s.byteAt s.sp).getLsbD 6),
                some ((s.byteAt s.sp).getLsbD 5), some ((s.byteAt s.sp).getLsbD 4)⟩).commit (s.pc + 1) 0))

/-! ## Arithmetic (41_alu8.md, 42_alu16.md) -/

/-- R116 to R118: ADD A,s and ADC A,s, for every source form. -/
def Obligations.AddAndAdc : Prop :=
  ∀ (i : Instr) (src : Loc8) (s : State), s.running = true →
    (i.op = some (.alu .add src) →
      Answers (exec i s) (s.readChecks src ++ [s.regCheck .a])
        (((s.setReg .a (BitVec.ofNat 8 (s.a.toNat + (s.operand src).toNat))).setFlags
          ⟨some (decide ((s.a.toNat + (s.operand src).toNat) % 256 = 0)), some false,
            some (decide (s.a.toNat % 16 + (s.operand src).toNat % 16 > 0x0F)),
            some (decide (s.a.toNat + (s.operand src).toNat > 0xFF))⟩).commit
          (s.pc + (if src = .imm8 then 2 else 1)) 0)) ∧
    (i.op = some (.alu .adc src) →
      Answers (exec i s) (s.readChecks src ++ [s.regCheck .a, s.flagCheck .c])
        (((s.setReg .a (BitVec.ofNat 8 (s.a.toNat + (s.operand src).toNat + b2n s.f.c))).setFlags
          ⟨some (decide ((s.a.toNat + (s.operand src).toNat + b2n s.f.c) % 256 = 0)), some false,
            some (decide (s.a.toNat % 16 + (s.operand src).toNat % 16 + b2n s.f.c > 0x0F)),
            some (decide (s.a.toNat + (s.operand src).toNat + b2n s.f.c > 0xFF))⟩).commit
          (s.pc + (if src = .imm8 then 2 else 1)) 0))

/-- R116, R119, R120, R124: SUB A,s, SBC A,s and CP A,s, for every source form; CP writes SUB's flags and leaves A. -/
def Obligations.SubSbcAndCp : Prop :=
  ∀ (i : Instr) (src : Loc8) (s : State), s.running = true →
    (i.op = some (.alu .sub src) →
      Answers (exec i s) (s.readChecks src ++ [s.regCheck .a])
        (((s.setReg .a (BitVec.ofInt 8 ((s.a.toNat : Int) - (s.operand src).toNat))).setFlags
          ⟨some (decide (s.a = s.operand src)), some true,
            some (decide (s.a.toNat % 16 < (s.operand src).toNat % 16)),
            some (decide (s.a.toNat < (s.operand src).toNat))⟩).commit
          (s.pc + (if src = .imm8 then 2 else 1)) 0)) ∧
    (i.op = some (.alu .sbc src) →
      Answers (exec i s) (s.readChecks src ++ [s.regCheck .a, s.flagCheck .c])
        (((s.setReg .a (BitVec.ofInt 8 ((s.a.toNat : Int) - (s.operand src).toNat - b2n s.f.c))).setFlags
          ⟨some (decide (((s.a.toNat : Int) - (s.operand src).toNat - b2n s.f.c) % 256 = 0)), some true,
            some (decide (s.a.toNat % 16 < (s.operand src).toNat % 16 + b2n s.f.c)),
            some (decide (s.a.toNat < (s.operand src).toNat + b2n s.f.c))⟩).commit
          (s.pc + (if src = .imm8 then 2 else 1)) 0)) ∧
    (i.op = some (.alu .cp src) →
      Answers (exec i s) (s.readChecks src ++ [s.regCheck .a])
        ((s.setFlags
          ⟨some (decide (s.a = s.operand src)), some true,
            some (decide (s.a.toNat % 16 < (s.operand src).toNat % 16)),
            some (decide (s.a.toNat < (s.operand src).toNat))⟩).commit
          (s.pc + (if src = .imm8 then 2 else 1)) 0))

/-- R116, R121 to R123: AND, XOR and OR, for every source form. -/
def Obligations.Logic : Prop :=
  ∀ (i : Instr) (src : Loc8) (s : State), s.running = true →
    (i.op = some (.alu .and src) →
      Answers (exec i s) (s.readChecks src ++ [s.regCheck .a])
        (((s.setReg .a (s.a &&& s.operand src)).setFlags
          ⟨some (decide (s.a &&& s.operand src = 0)), some false, some true, some false⟩).commit
          (s.pc + (if src = .imm8 then 2 else 1)) 0)) ∧
    (i.op = some (.alu .xor src) →
      Answers (exec i s) (s.readChecks src ++ [s.regCheck .a])
        (((s.setReg .a (s.a ^^^ s.operand src)).setFlags
          ⟨some (decide (s.a = s.operand src)), some false, some false, some false⟩).commit
          (s.pc + (if src = .imm8 then 2 else 1)) 0)) ∧
    (i.op = some (.alu .or src) →
      Answers (exec i s) (s.readChecks src ++ [s.regCheck .a])
        (((s.setReg .a (s.a ||| s.operand src)).setFlags
          ⟨some (decide (s.a = 0 ∧ s.operand src = 0)), some false, some false, some false⟩).commit
          (s.pc + (if src = .imm8 then 2 else 1)) 0))

/-- R125 and R126: INC t and DEC t, of a register and of (HL): read, write back, flags; C is not touched. -/
def Obligations.IncDecByte : Prop :=
  ∀ (i : Instr) (t : Loc8) (s : State), s.running = true →
    (i.op = some (.inc8 t) →
      Answers (exec i s) (s.readChecks t)
        (((s.putOperand t (BitVec.ofNat 8 ((s.operand t).toNat + 1))).setFlags
          ⟨some (decide ((s.operand t).toNat = 0xFF)), some false,
            some (decide ((s.operand t).toNat % 16 = 0x0F)), none⟩).commit (s.pc + 1) 0)) ∧
    (i.op = some (.dec8 t) →
      Answers (exec i s) (s.readChecks t)
        (((s.putOperand t (BitVec.ofInt 8 ((s.operand t).toNat - 1))).setFlags
          ⟨some (decide ((s.operand t).toNat = 0x01)), some true,
            some (decide ((s.operand t).toNat % 16 = 0)), none⟩).commit (s.pc + 1) 0))

/-- R127: DAA, in exact numbers (the thresholds are the spec's decision D14). After an addition, 0x60 is added when C is set
or A is above 0x99, and 6 when H is set or the low nibble is above 9; after a subtraction, 0x60 is taken away when C is
set and 6 when H is set, and C is kept. N is not touched. -/
def Obligations.DecimalAdjust : Prop :=
  ∀ (s : State) (a r : Nat) (c : Bool), s.running = true → a = s.a.toNat →
    r = (if s.f.n = false then
        (a + (if s.f.c = true ∨ a > 0x99 then 0x60 else 0) + (if s.f.h = true ∨ a % 16 > 9 then 6 else 0)) % 256
      else (a + 512 - (if s.f.c = true then 0x60 else 0) - (if s.f.h = true then 6 else 0)) % 256) →
    c = (s.f.c || (!s.f.n && decide (a > 0x99))) →
    Answers (exec .daa s) [s.regCheck .a, s.flagCheck .c, s.flagCheck .n, s.flagCheck .h]
      (((s.setReg .a (BitVec.ofNat 8 r)).setFlags ⟨some (decide (r = 0)), none, some false, some c⟩).commit
        (s.pc + 1) 0)

/-- What R117 and R127 are for (derived; D14): ADD A,B of two two-digit decimal bytes and then DAA gives the two digits of
the decimal sum, with C set exactly when the sum is a hundred or more. -/
def Obligations.DecimalAddition : Prop :=
  ∀ s : State, s.running = true → s.allDefined →
    s.a.toNat / 16 ≤ 9 → s.a.toNat % 16 ≤ 9 → s.b.toNat / 16 ≤ 9 → s.b.toNat % 16 ≤ 9 →
    ∃ t u, exec .add_A_B s = .next t ∧ exec .daa t = .next u ∧
      (u.a.toNat / 16 * 10 + u.a.toNat % 16) =
        ((s.a.toNat / 16 * 10 + s.a.toNat % 16) + (s.b.toNat / 16 * 10 + s.b.toNat % 16)) % 100 ∧
      u.a.toNat % 16 ≤ 9 ∧
      u.f.c = decide ((s.a.toNat / 16 * 10 + s.a.toNat % 16) + (s.b.toNat / 16 * 10 + s.b.toNat % 16) ≥ 100)

/-- R128 to R130: CPL, SCF and CCF. SCF reads nothing; the flags written '-' are not touched. -/
def Obligations.FlagOperations : Prop :=
  ∀ s : State, s.running = true →
    Answers (exec .cpl s) [s.regCheck .a]
      (((s.setReg .a (BitVec.ofNat 8 (255 - s.a.toNat))).setFlags ⟨none, some true, some true, none⟩).commit
        (s.pc + 1) 0) ∧
    exec .scf s = .next ((s.setFlags ⟨none, some false, some false, some true⟩).commit (s.pc + 1) 0) ∧
    Answers (exec .ccf s) [s.flagCheck .c]
      ((s.setFlags ⟨none, some false, some false, some (!s.f.c)⟩).commit (s.pc + 1) 0)

/-- R131 to R134 (the spec's decision D12): RLCA, RRCA, RLA and RRA, in numbers; Z is cleared whatever the result. -/
def Obligations.AccumulatorRotates : Prop :=
  ∀ (s : State) (a : Nat), s.running = true → a = s.a.toNat →
    Answers (exec .rlca s) [s.regCheck .a]
      (((s.setReg .a (BitVec.ofNat 8 (a * 2 % 256 + a / 128))).setFlags
        ⟨some false, some false, some false, some (decide (a / 128 = 1))⟩).commit (s.pc + 1) 0) ∧
    Answers (exec .rrca s) [s.regCheck .a]
      (((s.setReg .a (BitVec.ofNat 8 (a / 2 + a % 2 * 0x80))).setFlags
        ⟨some false, some false, some false, some (decide (a % 2 = 1))⟩).commit (s.pc + 1) 0) ∧
    Answers (exec .rla s) [s.regCheck .a, s.flagCheck .c]
      (((s.setReg .a (BitVec.ofNat 8 (a * 2 % 256 + b2n s.f.c))).setFlags
        ⟨some false, some false, some false, some (decide (a / 128 = 1))⟩).commit (s.pc + 1) 0) ∧
    Answers (exec .rra s) [s.regCheck .a, s.flagCheck .c]
      (((s.setReg .a (BitVec.ofNat 8 (a / 2 + b2n s.f.c * 0x80))).setFlags
        ⟨some false, some false, some false, some (decide (a % 2 = 1))⟩).commit (s.pc + 1) 0)

/-- R135 and R136: INC rr and DEC rr wrap and touch no flag. -/
def Obligations.IncDecPair : Prop :=
  ∀ (i : Instr) (k : Reg16) (s : State), s.running = true →
    (i.op = some (.inc16 k) →
      Answers (exec i s) (s.pairChecks k)
        ((s.setPair k (BitVec.ofNat 16 ((s.pair k).toNat + 1))).commit (s.pc + 1) 0)) ∧
    (i.op = some (.dec16 k) →
      Answers (exec i s) (s.pairChecks k)
        ((s.setPair k (BitVec.ofInt 16 ((s.pair k).toNat - 1))).commit (s.pc + 1) 0))

/-- R137: ADD HL,rr; the half-carry is out of bit 11, and Z is not touched. -/
def Obligations.AddPair : Prop :=
  ∀ (i : Instr) (k : Reg16) (s : State), s.running = true → i.op = some (.add16 k) →
    Answers (exec i s) ([s.regCheck .h, s.regCheck .l] ++ s.pairChecks k)
      (((s.setPair .hl (BitVec.ofNat 16 ((s.pair .hl).toNat + (s.pair k).toNat))).setFlags
        ⟨none, some false, some (decide ((s.pair .hl).toNat % 4096 + (s.pair k).toNat % 4096 > 0x0FFF)),
          some (decide ((s.pair .hl).toNat + (s.pair k).toNat > 0xFFFF))⟩).commit (s.pc + 1) 0)

/-! ## Control transfer and the single-byte operations (43_control.md, 44_misc.md) -/

/-- R139 to R143: JP nn, JP cc,nn, JP HL, JR e and JR cc,e. The immediate is read whether or not the jump is taken; JR counts
from pc+2 (the spec's decision D9); a taken jump returns 4 extra cycles. -/
def Obligations.Jumps : Prop :=
  ∀ (i : Instr) (cc : Cond) (s : State), s.running = true →
    (i.op = some (.jp cc .imm16) →
      Answers (exec i s) ([s.memCheck .fetch (s.pc + 1), s.memCheck .fetch (s.pc + 2)] ++ s.condChecks cc)
        (if s.cond cc then s.commit (join (s.byteAt (s.pc + 2)) (s.byteAt (s.pc + 1))) 4
          else s.commit (s.pc + 3) 0)) ∧
    (i.op = some (.jp cc .rel8) →
      Answers (exec i s) ([s.memCheck .fetch (s.pc + 1)] ++ s.condChecks cc)
        (if s.cond cc then
            s.commit (BitVec.ofInt 16 ((s.pc.toNat : Int) + 2 + (s.byteAt (s.pc + 1)).toInt)) 4
          else s.commit (s.pc + 2) 0)) ∧
    Answers (exec .jp_HL s) [s.regCheck .h, s.regCheck .l] (s.commit (join s.h s.l) 4)

/-- R139, R140, R144: CALL nn and CALL cc,nn. Taken, pc+3 is pushed high byte first, with 12 extra cycles; not taken, nothing
but PC changes. -/
def Obligations.Calls : Prop :=
  ∀ (i : Instr) (cc : Cond) (s : State), s.running = true → i.op = some (.call cc) →
    Answers (exec i s)
      ([s.memCheck .fetch (s.pc + 1), s.memCheck .fetch (s.pc + 2)] ++ s.condChecks cc ++
        (if s.cond cc then [s.memCheck .write (s.sp - 1), s.memCheck .write (s.sp - 2)] else []))
      (if s.cond cc then
        ((({ s with sp := s.sp - 2 } : State).setByte (s.sp - 1) (hi8 (s.pc + 3))).setByte (s.sp - 2)
          (lo8 (s.pc + 3))).commit (join (s.byteAt (s.pc + 2)) (s.byteAt (s.pc + 1))) 12
      else s.commit (s.pc + 3) 0)

/-- R139, R140, R145, R146: RET, RET cc and RETI. Taken, the return address is popped low byte first, with 12 extra cycles;
not taken, nothing but PC changes; RETI also sets ime. -/
def Obligations.Returns : Prop :=
  ∀ (i : Instr) (cc : Cond) (s : State), s.running = true → i.op = some (.ret cc) →
    Answers (exec i s)
      (s.condChecks cc ++ (if s.cond cc then [s.memCheck .read s.sp, s.memCheck .read (s.sp + 1)] else []))
      (if s.cond cc then
        ({ s with sp := s.sp + 2, ime := s.ime || decide (i = .reti) } : State).commit
          (join (s.byteAt (s.sp + 1)) (s.byteAt s.sp)) 12
      else s.commit (s.pc + 1) 0)

/-- R147 (the targets are the spec's decision D10, the absent penalty D18): RST t pushes the address of the RST itself and
goes to one of the eight targets. -/
def Obligations.Restarts : Prop :=
  ∀ s : State, s.running = true →
    ∀ p ∈ [(Instr.rst_00h, (0x0000 : Word)), (.rst_08h, 0x0008), (.rst_10h, 0x0010), (.rst_18h, 0x0018),
        (.rst_20h, 0x0020), (.rst_28h, 0x0028), (.rst_30h, 0x0030), (.rst_38h, 0x0038)],
      Answers (exec p.1 s) [s.memCheck .write (s.sp - 1), s.memCheck .write (s.sp - 2)]
        (((({ s with sp := s.sp - 2 } : State).setByte (s.sp - 1) (hi8 s.pc)).setByte (s.sp - 2)
          (lo8 s.pc)).commit p.2 0)

/-- R144, R145 and R147 together: RET after any taken CALL goes on after the CALL, and RET after any RST goes back to the RST
itself (the spec's deviation G9); either way SP, every register and every flag are as before. -/
def Obligations.CallThenReturn : Prop :=
  ∀ (i : Instr) (s t : State), s.running = true → s.mem.wf = true → exec i s = .next t →
    (∀ cc, i.op = some (.call cc) → s.cond cc = true →
      exec .ret t = .next { s with pc := s.pc + 3, mem := t.mem, lastExtra := 12 }) ∧
    ∀ v, i.op = some (.rst v) → exec .ret t = .next { s with mem := t.mem, lastExtra := 12 }

/-- R148 to R152: NOP, HALT, STOP, DI and EI complete in every running state. The length of STOP is P_STOP_LEN (D15), and DI
and EI act at once (D11). -/
def Obligations.SingleByteOperations : Prop :=
  ∀ s : State, s.running = true →
    exec .nop s = .next (s.commit (s.pc + 1) 0) ∧
    exec .halt s = .next (({ s with halted := true } : State).commit (s.pc + 1) 0) ∧
    exec .stop s = .next (({ s with stopped := true } : State).commit
      (s.pc + (match s.cfg.stopLen with | .one => 1 | .two => 2)) 0) ∧
    exec .di s = .next (({ s with ime := false } : State).commit (s.pc + 1) 0) ∧
    exec .ei s = .next (({ s with ime := true } : State).commit (s.pc + 1) 0)

/-! ## The prefixed space (45_prefixed.md) -/

/-- R155 to R162: the rotates, shifts and SWAP, of a register and of (HL), in numbers; Z from the result, N and H cleared, C
the bit shifted out. -/
def Obligations.PrefixedRotates : Prop :=
  ∀ (t : Loc8) (s : State), s.running = true → t.isReadModifyWrite = true →
    let v : Nat := (s.operand t).toNat
    let out : Nat → Bool → State := fun r c => ((s.putOperand t (BitVec.ofNat 8 r)).setFlags
      ⟨some (decide (r = 0)), some false, some false, some c⟩).commit (s.pc + 2) 0
    Answers (exec (.rlc t) s) (s.readChecks t) (out (v * 2 % 256 + v / 128) (decide (v / 128 = 1))) ∧
    Answers (exec (.rrc t) s) (s.readChecks t) (out (v / 2 + v % 2 * 0x80) (decide (v % 2 = 1))) ∧
    Answers (exec (.rl t) s) (s.readChecks t ++ [s.flagCheck .c])
      (out (v * 2 % 256 + b2n s.f.c) (decide (v / 128 = 1))) ∧
    Answers (exec (.rr t) s) (s.readChecks t ++ [s.flagCheck .c])
      (out (v / 2 + b2n s.f.c * 0x80) (decide (v % 2 = 1))) ∧
    Answers (exec (.sla t) s) (s.readChecks t) (out (v * 2 % 256) (decide (v / 128 = 1))) ∧
    Answers (exec (.sra t) s) (s.readChecks t) (out (v / 2 + v / 128 * 0x80) (decide (v % 2 = 1))) ∧
    Answers (exec (.swap t) s) (s.readChecks t) (out (v % 16 * 16 + v / 16) false) ∧
    Answers (exec (.srl t) s) (s.readChecks t) (out (v / 2) (decide (v % 2 = 1)))

/-- R163 to R165: BIT b,t reads only and leaves C; RES b,t and SET b,t write the operand with that bit changed and touch no
flag. -/
def Obligations.PrefixedBits : Prop :=
  ∀ (t : Loc8) (b : Fin 8) (s : State), s.running = true → t.isReadModifyWrite = true →
    Answers (exec (.bit b t) s) (s.readChecks t)
      ((s.setFlags ⟨some (decide ((s.operand t).toNat / 2 ^ b.val % 2 = 0)), some false, some true, none⟩).commit
        (s.pc + 2) 0) ∧
    (∃ r : Byte, Answers (exec (.res b t) s) (s.readChecks t) ((s.putOperand t r).commit (s.pc + 2) 0) ∧
      ∀ k < 8, r.getLsbD k = ((s.operand t).getLsbD k && decide (k ≠ b.val))) ∧
    ∃ r : Byte, Answers (exec (.set b t) s) (s.readChecks t) ((s.putOperand t r).commit (s.pc + 2) 0) ∧
      ∀ k < 8, r.getLsbD k = ((s.operand t).getLsbD k || decide (k = b.val))

/-- R76, R153 and R167: an illegal row ends the run with FATAL_DECODE on every path; the escape row fetches the code at
pc+1 and does what the prefixed instruction does under FULL, and ends the run under STUB. -/
def Obligations.IllegalAndEscapeRows : Prop :=
  (∀ (code : Byte) (s : State), exec (.illegal code) s = .fault (.decode code false)) ∧
  ∀ s : State,
    (s.mapped (s.pc + 1) = false → exec .prefixCb s = .fault (.mem (s.pc + 1) .fetch)) ∧
    (s.mapped (s.pc + 1) = true → s.cfg.prefixTable = .stub →
      exec .prefixCb s = .fault (.decode (s.byteAt (s.pc + 1)) true)) ∧
    (s.mapped (s.pc + 1) = true → s.cfg.prefixTable = .full → ∃ i,
      decode .full (s.byteAt (s.pc + 1)) true = some i ∧ exec .prefixCb s = exec i s)

/-! ## Frames -/

/-- What an instruction leaves unchanged in the register file: every general register but those its rule writes keeps its
value (and keeps holding none), SP is kept by all but the instructions of R25, and the configuration by all. -/
def Obligations.FrameRegisters : Prop :=
  ∀ (i : Instr) (o : Op) (s t : State), i.op = some o → exec i s = .next t →
    (∀ r, o.writesReg r = false → t.reg r = s.reg r ∧ t.holds (.reg r) = s.holds (.reg r)) ∧
    (o.writesSp = false → t.sp = s.sp) ∧ t.cfg = s.cfg ∧ t.lastCycles = s.lastCycles

/-- The summary table of 10_state.md section 2: an instruction leaves every flag its row marks '-', and the flag keeps
holding a value or none. -/
def Obligations.FrameFlags : Prop :=
  ∀ (i : Instr) (o : Op) (s t : State) (g : FlagName), i.op = some o → exec i s = .next t → o.touches g = false →
    t.flag g = s.flag g ∧ t.holds (.flag g) = s.holds (.flag g)

/-- What an instruction leaves unchanged in memory: everything for a form that stores nothing; and for a form that stores,
every byte but those at the address its own operation forms: the destination of a byte form, nn and nn+1 of LD (nn),SP,
and the two bytes below SP of PUSH, CALL and RST. -/
def Obligations.FrameMemory : Prop :=
  ∀ (i : Instr) (o : Op) (s t : State), i.op = some o → exec i s = .next t →
    (o.stores = false → ∀ x, t.byteAt x = s.byteAt x) ∧
    (∀ dst src a, o = .ld8 dst src → locPlace dst s = .ok (.mem a) → ∀ x, x ≠ a → t.byteAt x = s.byteAt x) ∧
    (∀ d k a, o = .inc8 d ∨ o = .dec8 d ∨ o = .cb k d → locPlace d s = .ok (.mem a) →
      ∀ x, x ≠ a → t.byteAt x = s.byteAt x) ∧
    (∀ nn, o = .ld16 .nnSP → fetchImm16 s = .ok nn → ∀ x, x ≠ nn → x ≠ nn + 1 → t.byteAt x = s.byteAt x) ∧
    ((∃ k, o = .push k) ∨ (∃ cc, o = .call cc) ∨ (∃ v, o = .rst v) →
      ∀ x, x ≠ s.sp - 1 → x ≠ s.sp - 2 → t.byteAt x = s.byteAt x)

end
end

