-- ==== Sys2Proof/Laws/State.lean ====
section
/-! SUPPORT. One lemma per field per update of the state: what each named update leaves as it was, and what it writes. Later
proofs use these and unfold no update. -/

namespace Sys2Proof.Machine

/-! ## setReg -/

@[simp] theorem State.setReg_f (s : State) (r : Reg8) (v : Byte) : (s.setReg r v).f = s.f := by cases r <;> rfl
@[simp] theorem State.setReg_sp (s : State) (r : Reg8) (v : Byte) : (s.setReg r v).sp = s.sp := by cases r <;> rfl
@[simp] theorem State.setReg_pc (s : State) (r : Reg8) (v : Byte) : (s.setReg r v).pc = s.pc := by cases r <;> rfl
@[simp] theorem State.setReg_ime (s : State) (r : Reg8) (v : Byte) : (s.setReg r v).ime = s.ime := by cases r <;> rfl
@[simp] theorem State.setReg_halted (s : State) (r : Reg8) (v : Byte) : (s.setReg r v).halted = s.halted := by cases r <;> rfl
@[simp] theorem State.setReg_stopped (s : State) (r : Reg8) (v : Byte) : (s.setReg r v).stopped = s.stopped := by cases r <;> rfl
@[simp] theorem State.setReg_mem (s : State) (r : Reg8) (v : Byte) : (s.setReg r v).mem = s.mem := by cases r <;> rfl
@[simp] theorem State.setReg_cfg (s : State) (r : Reg8) (v : Byte) : (s.setReg r v).cfg = s.cfg := by cases r <;> rfl
@[simp] theorem State.setReg_lastExtra (s : State) (r : Reg8) (v : Byte) : (s.setReg r v).lastExtra = s.lastExtra := by cases r <;> rfl
@[simp] theorem State.setReg_lastCycles (s : State) (r : Reg8) (v : Byte) : (s.setReg r v).lastCycles = s.lastCycles := by cases r <;> rfl

/-! ## setPair -/

@[simp] theorem State.setPair_f (s : State) (r : Reg16) (w : Word) : (s.setPair r w).f = s.f := by cases r <;> rfl
@[simp] theorem State.setPair_pc (s : State) (r : Reg16) (w : Word) : (s.setPair r w).pc = s.pc := by cases r <;> rfl
@[simp] theorem State.setPair_ime (s : State) (r : Reg16) (w : Word) : (s.setPair r w).ime = s.ime := by cases r <;> rfl
@[simp] theorem State.setPair_halted (s : State) (r : Reg16) (w : Word) : (s.setPair r w).halted = s.halted := by cases r <;> rfl
@[simp] theorem State.setPair_stopped (s : State) (r : Reg16) (w : Word) : (s.setPair r w).stopped = s.stopped := by cases r <;> rfl
@[simp] theorem State.setPair_mem (s : State) (r : Reg16) (w : Word) : (s.setPair r w).mem = s.mem := by cases r <;> rfl
@[simp] theorem State.setPair_cfg (s : State) (r : Reg16) (w : Word) : (s.setPair r w).cfg = s.cfg := by cases r <;> rfl
@[simp] theorem State.setPair_lastExtra (s : State) (r : Reg16) (w : Word) : (s.setPair r w).lastExtra = s.lastExtra := by cases r <;> rfl
@[simp] theorem State.setPair_lastCycles (s : State) (r : Reg16) (w : Word) : (s.setPair r w).lastCycles = s.lastCycles := by cases r <;> rfl

/-! ## setStk -/

@[simp] theorem State.setStk_sp (s : State) (r : StkReg) (w : Word) : (s.setStk r w).sp = s.sp := by cases r <;> rfl
@[simp] theorem State.setStk_pc (s : State) (r : StkReg) (w : Word) : (s.setStk r w).pc = s.pc := by cases r <;> rfl
@[simp] theorem State.setStk_ime (s : State) (r : StkReg) (w : Word) : (s.setStk r w).ime = s.ime := by cases r <;> rfl
@[simp] theorem State.setStk_halted (s : State) (r : StkReg) (w : Word) : (s.setStk r w).halted = s.halted := by cases r <;> rfl
@[simp] theorem State.setStk_stopped (s : State) (r : StkReg) (w : Word) : (s.setStk r w).stopped = s.stopped := by cases r <;> rfl
@[simp] theorem State.setStk_mem (s : State) (r : StkReg) (w : Word) : (s.setStk r w).mem = s.mem := by cases r <;> rfl
@[simp] theorem State.setStk_cfg (s : State) (r : StkReg) (w : Word) : (s.setStk r w).cfg = s.cfg := by cases r <;> rfl
@[simp] theorem State.setStk_lastExtra (s : State) (r : StkReg) (w : Word) : (s.setStk r w).lastExtra = s.lastExtra := by cases r <;> rfl
@[simp] theorem State.setStk_lastCycles (s : State) (r : StkReg) (w : Word) : (s.setStk r w).lastCycles = s.lastCycles := by cases r <;> rfl

/-! ## setFlags -/

@[simp] theorem State.setFlags_a (s : State) (w : FlagWrite) : (s.setFlags w).a = s.a := rfl
@[simp] theorem State.setFlags_b (s : State) (w : FlagWrite) : (s.setFlags w).b = s.b := rfl
@[simp] theorem State.setFlags_c (s : State) (w : FlagWrite) : (s.setFlags w).c = s.c := rfl
@[simp] theorem State.setFlags_d (s : State) (w : FlagWrite) : (s.setFlags w).d = s.d := rfl
@[simp] theorem State.setFlags_e (s : State) (w : FlagWrite) : (s.setFlags w).e = s.e := rfl
@[simp] theorem State.setFlags_h (s : State) (w : FlagWrite) : (s.setFlags w).h = s.h := rfl
@[simp] theorem State.setFlags_l (s : State) (w : FlagWrite) : (s.setFlags w).l = s.l := rfl
@[simp] theorem State.setFlags_sp (s : State) (w : FlagWrite) : (s.setFlags w).sp = s.sp := rfl
@[simp] theorem State.setFlags_pc (s : State) (w : FlagWrite) : (s.setFlags w).pc = s.pc := rfl
@[simp] theorem State.setFlags_ime (s : State) (w : FlagWrite) : (s.setFlags w).ime = s.ime := rfl
@[simp] theorem State.setFlags_halted (s : State) (w : FlagWrite) : (s.setFlags w).halted = s.halted := rfl
@[simp] theorem State.setFlags_stopped (s : State) (w : FlagWrite) : (s.setFlags w).stopped = s.stopped := rfl
@[simp] theorem State.setFlags_mem (s : State) (w : FlagWrite) : (s.setFlags w).mem = s.mem := rfl
@[simp] theorem State.setFlags_cfg (s : State) (w : FlagWrite) : (s.setFlags w).cfg = s.cfg := rfl
@[simp] theorem State.setFlags_lastExtra (s : State) (w : FlagWrite) : (s.setFlags w).lastExtra = s.lastExtra := rfl
@[simp] theorem State.setFlags_lastCycles (s : State) (w : FlagWrite) : (s.setFlags w).lastCycles = s.lastCycles := rfl

/-! ## setByte -/

@[simp] theorem State.setByte_a (s : State) (a : Word) (v : Byte) : (s.setByte a v).a = s.a := rfl
@[simp] theorem State.setByte_b (s : State) (a : Word) (v : Byte) : (s.setByte a v).b = s.b := rfl
@[simp] theorem State.setByte_c (s : State) (a : Word) (v : Byte) : (s.setByte a v).c = s.c := rfl
@[simp] theorem State.setByte_d (s : State) (a : Word) (v : Byte) : (s.setByte a v).d = s.d := rfl
@[simp] theorem State.setByte_e (s : State) (a : Word) (v : Byte) : (s.setByte a v).e = s.e := rfl
@[simp] theorem State.setByte_h (s : State) (a : Word) (v : Byte) : (s.setByte a v).h = s.h := rfl
@[simp] theorem State.setByte_l (s : State) (a : Word) (v : Byte) : (s.setByte a v).l = s.l := rfl
@[simp] theorem State.setByte_f (s : State) (a : Word) (v : Byte) : (s.setByte a v).f = s.f := rfl
@[simp] theorem State.setByte_sp (s : State) (a : Word) (v : Byte) : (s.setByte a v).sp = s.sp := rfl
@[simp] theorem State.setByte_pc (s : State) (a : Word) (v : Byte) : (s.setByte a v).pc = s.pc := rfl
@[simp] theorem State.setByte_ime (s : State) (a : Word) (v : Byte) : (s.setByte a v).ime = s.ime := rfl
@[simp] theorem State.setByte_halted (s : State) (a : Word) (v : Byte) : (s.setByte a v).halted = s.halted := rfl
@[simp] theorem State.setByte_stopped (s : State) (a : Word) (v : Byte) : (s.setByte a v).stopped = s.stopped := rfl
@[simp] theorem State.setByte_noValue (s : State) (a : Word) (v : Byte) : (s.setByte a v).noValue = s.noValue := rfl
@[simp] theorem State.setByte_cfg (s : State) (a : Word) (v : Byte) : (s.setByte a v).cfg = s.cfg := rfl
@[simp] theorem State.setByte_lastExtra (s : State) (a : Word) (v : Byte) : (s.setByte a v).lastExtra = s.lastExtra := rfl
@[simp] theorem State.setByte_lastCycles (s : State) (a : Word) (v : Byte) : (s.setByte a v).lastCycles = s.lastCycles := rfl

/-! ## commit -/

@[simp] theorem State.commit_a (s : State) (p : Word) (x : Byte) : (s.commit p x).a = s.a := rfl
@[simp] theorem State.commit_b (s : State) (p : Word) (x : Byte) : (s.commit p x).b = s.b := rfl
@[simp] theorem State.commit_c (s : State) (p : Word) (x : Byte) : (s.commit p x).c = s.c := rfl
@[simp] theorem State.commit_d (s : State) (p : Word) (x : Byte) : (s.commit p x).d = s.d := rfl
@[simp] theorem State.commit_e (s : State) (p : Word) (x : Byte) : (s.commit p x).e = s.e := rfl
@[simp] theorem State.commit_h (s : State) (p : Word) (x : Byte) : (s.commit p x).h = s.h := rfl
@[simp] theorem State.commit_l (s : State) (p : Word) (x : Byte) : (s.commit p x).l = s.l := rfl
@[simp] theorem State.commit_f (s : State) (p : Word) (x : Byte) : (s.commit p x).f = s.f := rfl
@[simp] theorem State.commit_sp (s : State) (p : Word) (x : Byte) : (s.commit p x).sp = s.sp := rfl
@[simp] theorem State.commit_ime (s : State) (p : Word) (x : Byte) : (s.commit p x).ime = s.ime := rfl
@[simp] theorem State.commit_halted (s : State) (p : Word) (x : Byte) : (s.commit p x).halted = s.halted := rfl
@[simp] theorem State.commit_stopped (s : State) (p : Word) (x : Byte) : (s.commit p x).stopped = s.stopped := rfl
@[simp] theorem State.commit_mem (s : State) (p : Word) (x : Byte) : (s.commit p x).mem = s.mem := rfl
@[simp] theorem State.commit_noValue (s : State) (p : Word) (x : Byte) : (s.commit p x).noValue = s.noValue := rfl
@[simp] theorem State.commit_cfg (s : State) (p : Word) (x : Byte) : (s.commit p x).cfg = s.cfg := rfl
@[simp] theorem State.commit_lastCycles (s : State) (p : Word) (x : Byte) : (s.commit p x).lastCycles = s.lastCycles := rfl

@[simp] theorem State.commit_pc (s : State) (p : Word) (x : Byte) : (s.commit p x).pc = p := rfl
@[simp] theorem State.commit_lastExtra (s : State) (p : Word) (x : Byte) : (s.commit p x).lastExtra = x := rfl
@[simp] theorem State.setByte_mem (s : State) (a : Word) (v : Byte) :
    (s.setByte a v).mem = s.mem.write a.toNat v := rfl
@[simp] theorem State.setPair_sp (s : State) (w : Word) : (s.setPair .sp w).sp = w := rfl
theorem State.setPair_sp_other (s : State) (r : Reg16) (w : Word) (h : r ≠ .sp) : (s.setPair r w).sp = s.sp := by
  cases r <;> first | rfl | exact absurd rfl h

/-! ## Registers, flags and marks after an update -/

theorem State.reg_setReg (s : State) (r q : Reg8) (v : Byte) :
    (s.setReg r v).reg q = if q = r then v else s.reg q := by
  cases r <;> cases q <;> rfl
@[simp] theorem State.reg_setReg_same (s : State) (r : Reg8) (v : Byte) : (s.setReg r v).reg r = v := by
  simp [State.reg_setReg]
theorem State.reg_setReg_other (s : State) (r q : Reg8) (v : Byte) (h : q ≠ r) : (s.setReg r v).reg q = s.reg q := by
  simp [State.reg_setReg, h]
@[simp] theorem State.holds_setReg (s : State) (r : Reg8) (n : RegName) (v : Byte) :
    (s.setReg r v).holds n = (decide (n = .reg r) || s.holds n) := by
  rcases n with q | g
  · cases r <;> cases q <;> simp [State.holds, State.setReg, NoValue.get]
  · cases r <;> cases g <;> simp [State.holds, State.setReg, NoValue.get]
@[simp] theorem State.reg_setFlags (s : State) (w : FlagWrite) (r : Reg8) : (s.setFlags w).reg r = s.reg r := by
  cases r <;> rfl
@[simp] theorem State.holds_setFlags_reg (s : State) (w : FlagWrite) (r : Reg8) :
    (s.setFlags w).holds (.reg r) = s.holds (.reg r) := by
  cases r <;> rfl
@[simp] theorem State.reg_setByte (s : State) (a : Word) (v : Byte) (r : Reg8) : (s.setByte a v).reg r = s.reg r := by
  cases r <;> rfl
@[simp] theorem State.reg_commit (s : State) (p : Word) (x : Byte) (r : Reg8) : (s.commit p x).reg r = s.reg r := by
  cases r <;> rfl
@[simp] theorem State.holds_setByte (s : State) (a : Word) (v : Byte) (n : RegName) :
    (s.setByte a v).holds n = s.holds n := rfl
@[simp] theorem State.holds_commit (s : State) (p : Word) (x : Byte) (n : RegName) :
    (s.commit p x).holds n = s.holds n := rfl
@[simp] theorem State.flag_setReg (s : State) (r : Reg8) (v : Byte) (g : FlagName) :
    (s.setReg r v).flag g = s.flag g := by
  cases g <;> simp [State.flag]
@[simp] theorem State.flag_setPair (s : State) (r : Reg16) (w : Word) (g : FlagName) :
    (s.setPair r w).flag g = s.flag g := by
  cases g <;> simp [State.flag]
@[simp] theorem State.flag_setByte (s : State) (a : Word) (v : Byte) (g : FlagName) :
    (s.setByte a v).flag g = s.flag g := by
  cases g <;> rfl
@[simp] theorem State.flag_commit (s : State) (p : Word) (x : Byte) (g : FlagName) :
    (s.commit p x).flag g = s.flag g := by
  cases g <;> rfl

/-! ## Memory reads and the run state after an update -/

@[simp] theorem State.byteAt_setReg (s : State) (r : Reg8) (v : Byte) (x : Word) : (s.setReg r v).byteAt x = s.byteAt x := by
  simp [State.byteAt]
@[simp] theorem State.wordAt_setReg (s : State) (r : Reg8) (v : Byte) (x : Word) : (s.setReg r v).wordAt x = s.wordAt x := by
  simp [State.wordAt]
@[simp] theorem State.byteAt_setPair (s : State) (r : Reg16) (w : Word) (x : Word) : (s.setPair r w).byteAt x = s.byteAt x := by
  simp [State.byteAt]
@[simp] theorem State.wordAt_setPair (s : State) (r : Reg16) (w : Word) (x : Word) : (s.setPair r w).wordAt x = s.wordAt x := by
  simp [State.wordAt]
@[simp] theorem State.byteAt_setStk (s : State) (r : StkReg) (w : Word) (x : Word) : (s.setStk r w).byteAt x = s.byteAt x := by
  simp [State.byteAt]
@[simp] theorem State.wordAt_setStk (s : State) (r : StkReg) (w : Word) (x : Word) : (s.setStk r w).wordAt x = s.wordAt x := by
  simp [State.wordAt]
@[simp] theorem State.byteAt_setFlags (s : State) (w : FlagWrite) (x : Word) : (s.setFlags w).byteAt x = s.byteAt x := by
  simp [State.byteAt]
@[simp] theorem State.wordAt_setFlags (s : State) (w : FlagWrite) (x : Word) : (s.setFlags w).wordAt x = s.wordAt x := by
  simp [State.wordAt]
@[simp] theorem State.byteAt_commit (s : State) (p : Word) (k : Byte) (x : Word) : (s.commit p k).byteAt x = s.byteAt x := by
  simp [State.byteAt]
@[simp] theorem State.wordAt_commit (s : State) (p : Word) (k : Byte) (x : Word) : (s.commit p k).wordAt x = s.wordAt x := by
  simp [State.wordAt]
@[simp] theorem State.mapped_setReg (s : State) (r : Reg8) (v : Byte) (x : Word) : (s.setReg r v).mapped x = s.mapped x := by cases r <;> rfl
@[simp] theorem State.running_setReg (s : State) (r : Reg8) (v : Byte) : (s.setReg r v).running = s.running := by
  simp [State.running]
@[simp] theorem State.mapped_setPair (s : State) (r : Reg16) (w : Word) (x : Word) : (s.setPair r w).mapped x = s.mapped x := by cases r <;> rfl
@[simp] theorem State.running_setPair (s : State) (r : Reg16) (w : Word) : (s.setPair r w).running = s.running := by
  simp [State.running]
@[simp] theorem State.mapped_setStk (s : State) (r : StkReg) (w : Word) (x : Word) : (s.setStk r w).mapped x = s.mapped x := by cases r <;> rfl
@[simp] theorem State.running_setStk (s : State) (r : StkReg) (w : Word) : (s.setStk r w).running = s.running := by
  simp [State.running]
@[simp] theorem State.mapped_setFlags (s : State) (w : FlagWrite) (x : Word) : (s.setFlags w).mapped x = s.mapped x := rfl
@[simp] theorem State.running_setFlags (s : State) (w : FlagWrite) : (s.setFlags w).running = s.running := by
  simp [State.running]
@[simp] theorem State.mapped_setByte (s : State) (a : Word) (v : Byte) (x : Word) : (s.setByte a v).mapped x = s.mapped x := rfl
@[simp] theorem State.running_setByte (s : State) (a : Word) (v : Byte) : (s.setByte a v).running = s.running := by
  simp [State.running]
@[simp] theorem State.mapped_commit (s : State) (p : Word) (k : Byte) (x : Word) : (s.commit p k).mapped x = s.mapped x := rfl
@[simp] theorem State.running_commit (s : State) (p : Word) (x : Byte) : (s.commit p x).running = s.running := by
  simp [State.running]

/-! ## Pairs -/

theorem toNat_join (x y : Byte) : (join x y).toNat = x.toNat * 256 + y.toNat := by
  have := x.isLt
  have := y.isLt
  simp only [join, BitVec.toNat_ofNat]
  omega
theorem toNat_hi8 (w : Word) : (hi8 w).toNat = w.toNat / 256 := by
  have := w.isLt
  simp only [hi8, BitVec.extractLsb'_toNat, Nat.shiftRight_eq_div_pow]
  omega
theorem toNat_lo8 (w : Word) : (lo8 w).toNat = w.toNat % 256 := by
  simp [lo8]
@[simp] theorem hi8_join (x y : Byte) : hi8 (join x y) = x := by
  apply BitVec.eq_of_toNat_eq
  have := y.isLt
  rw [toNat_hi8, toNat_join]
  omega
@[simp] theorem lo8_join (x y : Byte) : lo8 (join x y) = y := by
  apply BitVec.eq_of_toNat_eq
  have := y.isLt
  rw [toNat_lo8, toNat_join]
  omega
@[simp] theorem join_hi8_lo8 (w : Word) : join (hi8 w) (lo8 w) = w := by
  apply BitVec.eq_of_toNat_eq
  rw [toNat_join, toNat_hi8, toNat_lo8]
  omega
@[simp] theorem State.pair_setPair (s : State) (r : Reg16) (w : Word) : (s.setPair r w).pair r = w := by
  cases r <;> simp [State.pair, State.setPair, State.setReg]

end Sys2Proof.Machine
end

