-- ==== Sys2Proof/Laws/Memory.lean ====
section
/-! SUPPORT. The backing store: a read after a write, the canonical form, and that equal contents are equal lists. -/

namespace Sys2Proof.Machine

@[simp] theorem Memory.read_nil (a : Nat) : Memory.read [] a = Memory.unlisted := rfl

theorem Memory.read_cons (b : Nat) (w : Byte) (m : Memory) (a : Nat) :
    Memory.read ((b, w) :: m) a = if a = b then w else Memory.read m a := rfl

/-- In a canonical list whose addresses start at `lo`, a lower address is not listed. -/
theorem Memory.read_below (m : Memory) (lo a : Nat) (h : Memory.wfFrom lo m = true) (ha : a < lo) :
    Memory.read m a = Memory.unlisted := by
  induction m generalizing lo with
  | nil => rfl
  | cons c rest ih =>
    obtain ⟨b, w⟩ := c
    simp only [Memory.wfFrom, Bool.and_eq_true, decide_eq_true_eq] at h
    rw [Memory.read_cons, if_neg (by omega), ih (b + 1) h.2 (by omega)]

theorem Memory.wfFrom_mono (m : Memory) (lo lo' : Nat) (h : Memory.wfFrom lo m = true) (hl : lo' ≤ lo) :
    Memory.wfFrom lo' m = true := by
  cases m with
  | nil => rfl
  | cons c rest =>
    simp only [Memory.wfFrom, Bool.and_eq_true, decide_eq_true_eq] at h ⊢
    exact ⟨⟨by omega, h.1.2⟩, h.2⟩

theorem Memory.wfFrom_cons (m : Memory) (lo a : Nat) (v : Byte) (hl : lo ≤ a)
    (h : Memory.wfFrom (a + 1) m = true) : Memory.wfFrom lo (Memory.cons a v m) = true := by
  unfold Memory.cons
  split
  · exact Memory.wfFrom_mono m _ _ h (by omega)
  · simp_all [Memory.wfFrom]

theorem Memory.wfFrom_write (m : Memory) (lo a : Nat) (v : Byte) (hl : lo ≤ a)
    (h : Memory.wfFrom lo m = true) : Memory.wfFrom lo (m.write a v) = true := by
  induction m generalizing lo with
  | nil => exact Memory.wfFrom_cons [] lo a v hl rfl
  | cons c rest ih =>
    obtain ⟨b, w⟩ := c
    simp only [Memory.wfFrom, Bool.and_eq_true, decide_eq_true_eq] at h
    unfold Memory.write
    split
    · refine Memory.wfFrom_cons _ lo a v hl ?_
      simp only [Memory.wfFrom, Bool.and_eq_true, decide_eq_true_eq]
      exact ⟨⟨by omega, h.1.2⟩, h.2⟩
    · split
      · next hab =>
        subst hab
        exact Memory.wfFrom_cons rest lo a v hl h.2
      · simp only [Memory.wfFrom, Bool.and_eq_true, decide_eq_true_eq]
        exact ⟨h.1, ih (b + 1) (by omega) h.2⟩

/-- A write keeps the canonical form. -/
theorem Memory.wf_write (m : Memory) (a : Nat) (v : Byte) (h : m.wf = true) : (m.write a v).wf = true :=
  Memory.wfFrom_write m 0 a v (Nat.zero_le a) h

theorem Memory.read_consCell (m : Memory) (a : Nat) (v : Byte) (b : Nat) (hm : Memory.read m a = Memory.unlisted) :
    Memory.read (Memory.cons a v m) b = if b = a then v else Memory.read m b := by
  unfold Memory.cons
  split
  · next hv =>
    split
    · next hb => rw [hb, hm, hv]
    · rfl
  · rfl

/-- A read after a write, in a canonical memory: the value written at the address, and the old byte elsewhere (R41, R42). -/
theorem Memory.read_write (m : Memory) (lo a : Nat) (v : Byte) (b : Nat) (h : Memory.wfFrom lo m = true) :
    (m.write a v).read b = if b = a then v else m.read b := by
  induction m generalizing lo with
  | nil => exact Memory.read_consCell [] a v b rfl
  | cons c rest ih =>
    obtain ⟨x, w⟩ := c
    have hw := h
    simp only [Memory.wfFrom, Bool.and_eq_true, decide_eq_true_eq] at h
    unfold Memory.write
    split
    · next hax =>
      refine Memory.read_consCell _ a v b ?_
      rw [Memory.read_cons, if_neg (by omega), Memory.read_below rest (x + 1) a h.2 (by omega)]
    · split
      · next _ hax =>
        subst hax
        rw [Memory.read_consCell rest a v b (Memory.read_below rest (a + 1) a h.2 (by omega)), Memory.read_cons]
        split <;> rfl
      · next hax =>
        rw [Memory.read_cons, Memory.read_cons, ih (x + 1) h.2]
        by_cases hbx : b = x
        · rw [if_pos hbx, if_neg (by omega), if_pos hbx]
        · rw [if_neg hbx, if_neg hbx]

theorem Memory.read_write_same (m : Memory) (a : Nat) (v : Byte) (h : m.wf = true) : (m.write a v).read a = v := by
  rw [Memory.read_write m 0 a v a h, if_pos rfl]

theorem Memory.read_consOther (m : Memory) (a : Nat) (v : Byte) (b : Nat) (hb : b ≠ a) :
    Memory.read (Memory.cons a v m) b = Memory.read m b := by
  unfold Memory.cons
  split
  · rfl
  · rw [Memory.read_cons, if_neg hb]

/-- A write leaves every other cell, in any memory. -/
theorem Memory.read_write_other (m : Memory) (a : Nat) (v : Byte) (b : Nat) (hb : b ≠ a) :
    (m.write a v).read b = m.read b := by
  induction m with
  | nil => exact Memory.read_consOther [] a v b hb
  | cons c rest ih =>
    obtain ⟨x, w⟩ := c
    unfold Memory.write
    split
    · exact Memory.read_consOther _ a v b hb
    · split
      · next hax => rw [Memory.read_consOther _ a v b hb, Memory.read_cons, if_neg (hax ▸ hb)]
      · rw [Memory.read_cons, Memory.read_cons, ih]

theorem Memory.below_cons (m : Memory) (n a : Nat) (v : Byte) (ha : a < n) (h : m.below n = true) :
    (Memory.cons a v m).below n = true := by
  unfold Memory.cons
  split
  · exact h
  · simp_all [Memory.below]

/-- A write below the size of the store lists only cells of the store. -/
theorem Memory.below_write (m : Memory) (n a : Nat) (v : Byte) (ha : a < n) (h : m.below n = true) :
    (m.write a v).below n = true := by
  induction m with
  | nil => exact Memory.below_cons [] n a v ha rfl
  | cons c rest ih =>
    obtain ⟨b, w⟩ := c
    have hr : Memory.below n rest = true := by simp_all [Memory.below]
    unfold Memory.write
    split
    · exact Memory.below_cons _ n a v ha h
    · split
      · exact Memory.below_cons rest n a v ha hr
      · have := ih hr
        simp_all [Memory.below]

/-- The canonical form is canonical: memories with the same contents are the same list. -/
theorem Memory.ext (m m' : Memory) (lo : Nat) (h : Memory.wfFrom lo m = true) (h' : Memory.wfFrom lo m' = true)
    (hr : ∀ a, m.read a = m'.read a) : m = m' := by
  induction m generalizing m' lo with
  | nil =>
    cases m' with
    | nil => rfl
    | cons c rest =>
      obtain ⟨b, w⟩ := c
      have := hr b
      simp_all [Memory.wfFrom, Memory.read_cons]
  | cons c rest ih =>
    obtain ⟨b, w⟩ := c
    simp only [Memory.wfFrom, Bool.and_eq_true, decide_eq_true_eq, bne_iff_ne] at h
    cases m' with
    | nil =>
      have := hr b
      simp_all [Memory.read_cons]
    | cons c' rest' =>
      obtain ⟨b', w'⟩ := c'
      simp only [Memory.wfFrom, Bool.and_eq_true, decide_eq_true_eq, bne_iff_ne] at h'
      have hb : b = b' := by
        rcases Nat.lt_trichotomy b b' with hlt | heq | hgt
        · have hx := hr b
          rw [Memory.read_cons, if_pos rfl, Memory.read_cons, if_neg (by omega),
            Memory.read_below rest' (b' + 1) b h'.2 (by omega)] at hx
          exact absurd hx h.1.2
        · exact heq
        · have hx := hr b'
          rw [Memory.read_cons, if_neg (by omega), Memory.read_below rest (b + 1) b' h.2 (by omega),
            Memory.read_cons, if_pos rfl] at hx
          exact absurd hx.symm h'.1.2
      subst hb
      have hw : w = w' := by simpa [Memory.read_cons] using hr b
      subst hw
      rw [ih rest' (b + 1) h.2 h'.2]
      intro a
      rcases Nat.lt_or_ge a (b + 1) with hlt | hge
      · rw [Memory.read_below rest (b + 1) a h.2 hlt, Memory.read_below rest' (b + 1) a h'.2 hlt]
      · have hx := hr a
        rwa [Memory.read_cons, Memory.read_cons, if_neg (by omega), if_neg (by omega)] at hx

/-! ## The same at the level of the state -/

/-- A byte after a one-cell write, in a state whose memory is canonical (R41, R42). -/
theorem State.byteAt_setByte (s : State) (a : Word) (v : Byte) (b : Word) (h : s.mem.wf = true) :
    (s.setByte a v).byteAt b = if b = a then v else s.byteAt b := by
  have key := Memory.read_write s.mem 0 a.toNat v b.toNat h
  by_cases hb : b = a
  · subst hb
    simpa [State.byteAt] using key
  · rw [if_neg hb]
    rw [if_neg (fun h => hb (BitVec.eq_of_toNat_eq h))] at key
    exact key

/-- A one-cell write leaves every other byte, in any state (R42). -/
theorem State.byteAt_setByte_other (s : State) (a : Word) (v : Byte) (b : Word) (h : b ≠ a) :
    (s.setByte a v).byteAt b = s.byteAt b :=
  Memory.read_write_other s.mem a.toNat v b.toNat fun e => h (BitVec.eq_of_toNat_eq e)

theorem State.wf_setByte (s : State) (a : Word) (v : Byte) (h : s.wf = true) (ha : s.mapped a = true) :
    (s.setByte a v).wf = true := by
  simp only [State.wf, Bool.and_eq_true] at h ⊢
  simp only [State.mapped, decide_eq_true_eq] at ha
  exact ⟨Memory.wf_write s.mem _ v h.1, Memory.below_write s.mem _ _ v ha h.2⟩

/-- The memory after reset is canonical and lists nothing. -/
theorem State.wf_resetWith (cfg : Config) : (State.resetWith cfg).wf = true := rfl

end Sys2Proof.Machine
end

