-- ==== Sys2Proof/Laws/Ops.lean ====
section
/-! SUPPORT. One lemma per shared operation: everything it can answer. Callers cite these and unfold no operation. -/

namespace Sys2Proof.Machine

/-! ## Sequencing -/

theorem bind_eq_ok {ε α β : Type} {x : Except ε α} {f : α → Except ε β} {r : β} :
    (x >>= f) = .ok r ↔ ∃ a, x = .ok a ∧ f a = .ok r := by
  cases x <;> simp [bind, Except.bind]

theorem bind_eq_error {ε α β : Type} {x : Except ε α} {f : α → Except ε β} {e : ε} :
    (x >>= f) = .error e ↔ x = .error e ∨ ∃ a, x = .ok a ∧ f a = .error e := by
  cases x <;> simp [bind, Except.bind]

@[simp] theorem ok_bind {ε α β : Type} (a : α) (f : α → Except ε β) : (Except.ok a >>= f) = f a := rfl
@[simp] theorem error_bind {ε α β : Type} (e : ε) (f : α → Except ε β) :
    ((Except.error e : Except ε α) >>= f) = .error e := rfl
@[simp] theorem pure_eq_ok {ε α : Type} (a : α) : (pure a : Except ε α) = .ok a := rfl
@[simp] theorem raise_eq_error {α : Type} (f : Fault) : (raise f : Except Fault α) = .error f := rfl

/-! ## Registers and flags -/

theorem readReg_eq_ok {r : Reg8} {s : State} {v : Byte} :
    readReg r s = .ok v ↔ s.holds (.reg r) = true ∧ s.reg r = v := by
  unfold readReg
  split <;> simp_all

theorem readFlag_eq_ok {g : FlagName} {s : State} {v : Bool} :
    readFlag g s = .ok v ↔ s.holds (.flag g) = true ∧ s.flag g = v := by
  unfold readFlag
  split <;> simp_all

theorem readHalves_eq_ok {hi lo : Reg8} {s : State} {w : Word} :
    readHalves hi lo s = .ok w ↔
      s.holds (.reg hi) = true ∧ s.holds (.reg lo) = true ∧ join (s.reg hi) (s.reg lo) = w := by
  simp only [readHalves, bind_eq_ok, readReg_eq_ok, pure_eq_ok, Except.ok.injEq]
  constructor
  · rintro ⟨_, ⟨h1, rfl⟩, _, ⟨h2, rfl⟩, h3⟩
    exact ⟨h1, h2, h3⟩
  · rintro ⟨h1, h2, h3⟩
    exact ⟨_, ⟨h1, rfl⟩, _, ⟨h2, rfl⟩, h3⟩

/-- A pair that is read gives its 16-bit contents. -/
theorem readPair_ok {r : Reg16} {s : State} {w : Word} (h : readPair r s = .ok w) : w = s.pair r := by
  cases r <;> simp only [readPair, readHalves_eq_ok, Except.ok.injEq] at h
  · exact h.2.2.symm
  · exact h.2.2.symm
  · exact h.2.2.symm
  · exact h.symm

/-- A pair is readable when both its halves hold values; SP always is. -/
theorem readPair_of_holds {r : Reg16} {s : State} (h : ∀ n, s.holds n = true) : readPair r s = .ok (s.pair r) := by
  cases r <;> simp [readPair, readHalves, readReg, h, State.pair, State.reg]

/-- A stack pair that is read gives its 16-bit contents. -/
theorem readStk_ok {r : StkReg} {s : State} {w : Word} (h : readStk r s = .ok w) : w = s.stk r := by
  cases r
  · exact readPair_ok (r := .bc) h
  · exact readPair_ok (r := .de) h
  · exact readPair_ok (r := .hl) h
  · simp only [readStk, bind_eq_ok, readReg_eq_ok, readFlag_eq_ok, pure_eq_ok, Except.ok.injEq] at h
    obtain ⟨_, ⟨_, rfl⟩, _, ⟨_, rfl⟩, _, ⟨_, rfl⟩, _, ⟨_, rfl⟩, _, ⟨_, rfl⟩, rfl⟩ := h
    rfl

theorem readStk_of_holds {r : StkReg} {s : State} (h : ∀ n, s.holds n = true) : readStk r s = .ok (s.stk r) := by
  cases r
  · exact readPair_of_holds (r := .bc) h
  · exact readPair_of_holds (r := .de) h
  · exact readPair_of_holds (r := .hl) h
  · simp [readStk, readReg, readFlag, h, State.stk, State.reg, State.flag]

/-! ## Memory -/

theorem memRead_eq_ok {k : AccessKind} {a : Word} {s : State} {v : Byte} :
    memRead k a s = .ok v ↔ s.mapped a = true ∧ s.byteAt a = v := by
  unfold memRead
  split <;> simp_all

theorem memWrite_eq_ok {a : Word} {v : Byte} {s t : State} :
    memWrite a v s = .ok t ↔ s.mapped a = true ∧ s.setByte a v = t := by
  unfold memWrite
  split <;> simp_all

/-- A word read gives the two bytes, low byte at the lower address. -/
theorem memRead16_eq_ok {k : AccessKind} {a : Word} {s : State} {w : Word} :
    memRead16 k a s = .ok w ↔ s.mapped a = true ∧ s.mapped (a + 1) = true ∧ s.wordAt a = w := by
  simp only [memRead16, bind_eq_ok, memRead_eq_ok, pure_eq_ok, Except.ok.injEq, State.wordAt]
  constructor
  · rintro ⟨_, ⟨h1, rfl⟩, _, ⟨h2, rfl⟩, h3⟩
    exact ⟨h1, h2, h3⟩
  · rintro ⟨h1, h2, h3⟩
    exact ⟨_, ⟨h1, rfl⟩, _, ⟨h2, rfl⟩, h3⟩

theorem memWrite16_eq_ok {a w : Word} {s t : State} :
    memWrite16 a w s = .ok t ↔
      s.mapped a = true ∧ s.mapped (a + 1) = true ∧ (s.setByte a (lo8 w)).setByte (a + 1) (hi8 w) = t := by
  simp only [memWrite16, bind_eq_ok, memWrite_eq_ok]
  constructor
  · rintro ⟨_, ⟨h1, rfl⟩, h2, h3⟩
    exact ⟨h1, h2, h3⟩
  · rintro ⟨h1, h2, h3⟩
    exact ⟨_, ⟨h1, rfl⟩, h2, h3⟩

theorem fetchImm8_eq_ok {s : State} {v : Byte} :
    fetchImm8 s = .ok v ↔ s.mapped (s.pc + 1) = true ∧ s.byteAt (s.pc + 1) = v := memRead_eq_ok

theorem fetchImm16_eq_ok {s : State} {w : Word} :
    fetchImm16 s = .ok w ↔
      s.mapped (s.pc + 1) = true ∧ s.mapped (s.pc + 1 + 1) = true ∧ s.wordAt (s.pc + 1) = w := memRead16_eq_ok

/-! ## Stack -/

theorem sub_one_sub_one (a : Word) : a - 1 - 1 = a - 2 := by
  bv_omega

theorem add_one_add_one (a : Word) : a + 1 + 1 = a + 2 := by
  bv_omega

theorem push16_eq_ok {w : Word} {s t : State} :
    push16 w s = .ok t ↔ s.mapped (s.sp - 1) = true ∧ s.mapped (s.sp - 2) = true ∧ s.pushed w = t := by
  simp only [push16, push8, bind_eq_ok, memWrite_eq_ok, State.pushed]
  constructor
  · rintro ⟨_, ⟨h1, rfl⟩, h2, h3⟩
    simp only [State.setByte_sp, sub_one_sub_one] at h2 h3
    exact ⟨h1, h2, h3⟩
  · rintro ⟨h1, h2, h3⟩
    refine ⟨_, ⟨h1, rfl⟩, ?_⟩
    simp only [State.setByte_sp, sub_one_sub_one]
    exact ⟨h2, h3⟩

theorem pop16_eq_ok {s : State} {p : Word × State} :
    pop16 s = .ok p ↔
      s.mapped s.sp = true ∧ s.mapped (s.sp + 1) = true ∧ (s.wordAt s.sp, { s with sp := s.sp + 2 }) = p := by
  simp only [pop16, pop8, bind_eq_ok, memRead_eq_ok, pure_eq_ok, Except.ok.injEq]
  constructor
  · rintro ⟨_, ⟨_, ⟨h1, rfl⟩, rfl⟩, _, ⟨_, ⟨h2, rfl⟩, rfl⟩, rfl⟩
    refine ⟨h1, h2, ?_⟩
    simp only [add_one_add_one]
    rfl
  · rintro ⟨h1, h2, rfl⟩
    refine ⟨_, ⟨_, ⟨h1, rfl⟩, rfl⟩, _, ⟨_, ⟨h2, rfl⟩, rfl⟩, ?_⟩
    simp only [add_one_add_one]
    rfl

@[simp] theorem State.pushed_sp (s : State) (w : Word) : (s.pushed w).sp = s.sp - 2 := rfl
@[simp] theorem State.pushed_cfg (s : State) (w : Word) : (s.pushed w).cfg = s.cfg := rfl
@[simp] theorem State.pushed_f (s : State) (w : Word) : (s.pushed w).f = s.f := rfl
@[simp] theorem State.pushed_noValue (s : State) (w : Word) : (s.pushed w).noValue = s.noValue := rfl
@[simp] theorem State.pushed_pc (s : State) (w : Word) : (s.pushed w).pc = s.pc := rfl
@[simp] theorem State.pushed_ime (s : State) (w : Word) : (s.pushed w).ime = s.ime := rfl
@[simp] theorem State.pushed_halted (s : State) (w : Word) : (s.pushed w).halted = s.halted := rfl
@[simp] theorem State.pushed_stopped (s : State) (w : Word) : (s.pushed w).stopped = s.stopped := rfl

/-! ## Operands -/

/-- A formed place of a memory operand is in memory; a register operand's is the register; n has none. -/
theorem readLoc_ok {t : Loc8} {s : State} {p : Byte × State} (h : readLoc t s = .ok p) : p.2 = locAfter t s := by
  simp only [readLoc, bind_eq_ok, pure_eq_ok, Except.ok.injEq] at h
  obtain ⟨_, _, _, _, rfl⟩ := h
  rfl

/-- What a write of an operand leaves: the register written, or one cell written and HL changed as the form says. -/
theorem writeLoc_ok {i : Op} {t : Loc8} {v : Byte} {s s' : State} (h : writeLoc i t v s = .ok s') :
    (∃ r, locPlace t s = .ok (.reg r) ∧ s' = s.setReg r v) ∨
    (∃ a, locPlace t s = .ok (.mem a) ∧ s.mapped a = true ∧ s' = locAfter t (s.setByte a v)) := by
  simp only [writeLoc, bind_eq_ok] at h
  obtain ⟨p, hp, h⟩ := h
  cases p with
  | reg r =>
    refine .inl ⟨r, hp, ?_⟩
    simpa using h.symm
  | mem a =>
    simp only [bind_eq_ok, memWrite_eq_ok, pure_eq_ok, Except.ok.injEq] at h
    obtain ⟨_, ⟨hm, rfl⟩, rfl⟩ := h
    exact .inr ⟨a, hp, hm, rfl⟩
  | immediate => simp at h

/-- HL's change after an access touches nothing but HL. -/
theorem locAfter_eq (t : Loc8) (s : State) : locAfter t s = s ∨ ∃ w, locAfter t s = s.setPair .hl w := by
  cases t
  case indHLInc => exact .inr ⟨_, rfl⟩
  case indHLDec => exact .inr ⟨_, rfl⟩
  all_goals exact .inl rfl

/-- A condition leaves the state, but for ime under ALWAYS_IE (R139). -/
theorem evalCond_ok {cc : Cond} {s : State} {p : Bool × State} (h : evalCond cc s = .ok p) :
    p.2 = s ∨ (cc = .alwaysIe ∧ p.2 = { s with ime := true }) := by
  cases cc <;> simp only [evalCond, bind_eq_ok, pure_eq_ok, Except.ok.injEq] at h
  case alwaysIe => exact .inr ⟨rfl, by rw [← h]⟩
  case always => exact .inl (by rw [← h])
  all_goals
    obtain ⟨_, _, rfl⟩ := h
    exact .inl rfl

end Sys2Proof.Machine
end

