-- ==== Sys2Proof/Laws/Arms.lean ====
section
/-! SUPPORT. What an instruction can do, said once: an arm is made of the primitive updates, each only where the tables of what
the instruction may write allow it. So a property that the allowed updates keep is kept by the arm, by execute and by
exec. -/

namespace Sys2Proof.Machine

/-- What a flag write says of one flag. -/
def FlagWrite.get (w : FlagWrite) : FlagName → Option Bool
  | .z => w.z
  | .n => w.n
  | .h => w.h
  | .c => w.c

/-- The decoded values that set or clear ime (R27, R139). -/
def writesIme : Op → Bool
  | .ei | .di | .jp .alwaysIe _ | .call .alwaysIe | .ret .alwaysIe => true
  | _ => false

/-- A property of states that every update allowed to `o` keeps. -/
structure ArmClosed (o : Op) (P : State → Prop) : Prop where
  setReg : ∀ s r v, o.writesReg r = true → P s → P (s.setReg r v)
  setFlags : ∀ s w, (∀ g, o.touches g = false → w.get g = none) → P s → P (s.setFlags w)
  setSp : ∀ (s : State) w, o.writesSp = true → P s → P { s with sp := w }
  setByte : ∀ s a v, o.stores = true → s.mapped a = true → P s → P (s.setByte a v)
  setIme : ∀ (s : State) b, writesIme o = true → P s → P { s with ime := b }
  setHalted : ∀ s : State, o = .halt → P s → P { s with halted := true }
  setStopped : ∀ s : State, o = .stop → P s → P { s with stopped := true }

variable {o : Op} {P : State → Prop}

theorem ArmClosed.setPair (hP : ArmClosed o P) (s : State) (k : Reg16) (w : Word)
    (hk : ∀ r, k.has r = true → o.writesReg r = true) (hsp : k = .sp → o.writesSp = true) (hs : P s) :
    P (s.setPair k w) := by
  cases k <;> simp only [State.setPair]
  case sp => exact hP.setSp _ _ (hsp rfl) hs
  all_goals exact hP.setReg _ _ _ (hk _ rfl) (hP.setReg _ _ _ (hk _ rfl) hs)

theorem ArmClosed.locAfter (hP : ArmClosed o P) (t : Loc8) (s : State)
    (ht : ∀ r, t.moves r = true → o.writesReg r = true) (hs : P s) : P (locAfter t s) := by
  cases t <;> simp only [Machine.locAfter]
  case indHLInc => exact hP.setPair s .hl _ ht nofun hs
  case indHLDec => exact hP.setPair s .hl _ ht nofun hs
  all_goals exact hs

theorem ArmClosed.readLoc (hP : ArmClosed o P) {t : Loc8} {s : State} {p : Byte × State} (h : readLoc t s = .ok p)
    (ht : ∀ r, t.moves r = true → o.writesReg r = true) (hs : P s) : P p.2 := by
  rw [readLoc_ok h]
  exact hP.locAfter _ _ ht hs

/-- The place of a register operand is that register; a memory operand's is in memory. -/
theorem locPlace_ok {t : Loc8} {s : State} {p : Place} (h : locPlace t s = .ok p) :
    (∀ r, p = .reg r → t = .reg r) ∧ (∀ a, p = .mem a → t.isRegister = false) := by
  cases t <;> simp only [locPlace, bind_eq_ok, pure_eq_ok, Except.ok.injEq] at h
  case reg r =>
    subst h
    exact ⟨fun r h => by cases h; rfl, nofun⟩
  case imm8 =>
    subst h
    exact ⟨nofun, nofun⟩
  all_goals
    obtain ⟨_, _, rfl⟩ := h
    exact ⟨nofun, fun _ _ => rfl⟩

theorem ArmClosed.writeLoc (hP : ArmClosed o P) {i : Op} {t : Loc8} {v : Byte} {s s' : State}
    (h : writeLoc i t v s = .ok s') (hr : ∀ r, t = .reg r ∨ t.moves r = true → o.writesReg r = true)
    (hm : t.isRegister = false → o.stores = true) (hs : P s) : P s' := by
  rcases writeLoc_ok h with ⟨r, hp, rfl⟩ | ⟨a, hp, ha, rfl⟩
  · exact hP.setReg _ _ _ (hr _ (.inl ((locPlace_ok hp).1 r rfl))) hs
  · exact hP.locAfter _ _ (fun r h => hr r (.inr h)) (hP.setByte _ _ _ (hm ((locPlace_ok hp).2 a rfl)) ha hs)

theorem ArmClosed.pushed (hP : ArmClosed o P) {w : Word} {s t : State} (h : push16 w s = .ok t)
    (hsp : o.writesSp = true) (hm : o.stores = true) (hs : P s) : P t := by
  obtain ⟨h1, h2, rfl⟩ := push16_eq_ok.mp h
  exact hP.setByte _ _ _ hm h2 (hP.setByte _ _ _ hm h1 (hP.setSp _ _ hsp hs))

theorem ArmClosed.popped (hP : ArmClosed o P) {s : State} {p : Word × State} (h : pop16 s = .ok p)
    (hsp : o.writesSp = true) (hs : P s) : P p.2 := by
  obtain ⟨_, _, rfl⟩ := pop16_eq_ok.mp h
  exact hP.setSp _ _ hsp hs

theorem ArmClosed.evalCond (hP : ArmClosed o P) {cc : Cond} {s : State} {p : Bool × State}
    (h : evalCond cc s = .ok p) (hi : cc = .alwaysIe → writesIme o = true) (hs : P s) : P p.2 := by
  rcases evalCond_ok h with h | ⟨hc, h⟩
  · rw [h]
    exact hs
  · rw [h]
    exact hP.setIme _ _ (hi hc) hs

/-! ## The arms -/

theorem ArmClosed.armLd8 {dst src : Loc8} (hP : ArmClosed (.ld8 dst src) P) {s : State} {r : Result}
    (h : armLd8 dst src s = .ok r) (hs : P s) : P r.state := by
  simp only [Machine.armLd8, bind_eq_ok, pure_eq_ok, Except.ok.injEq] at h
  obtain ⟨_, _, _, h1, _, h2, rfl⟩ := h
  refine hP.writeLoc h2 ?_ ?_ (hP.readLoc h1 ?_ hs)
  · rintro r (rfl | h)
    · simp [Op.writesReg]
    · simp [Op.writesReg, h]
  · intro h
    simp [Op.stores, h]
  · intro r h
    simp [Op.writesReg, h]

theorem ArmClosed.armLd16 {w : WordLoad} (hP : ArmClosed (.ld16 w) P) {s : State} {r : Result}
    (h : armLd16 w s = .ok r) (hs : P s) : P r.state := by
  cases w <;> simp only [Machine.armLd16, armLd16Imm, armLd16NnSp, armLd16SpHl, armLd16HlSpE, bind_eq_ok, pure_eq_ok,
    Except.ok.injEq] at h
  case imm k =>
    obtain ⟨_, _, rfl⟩ := h
    exact hP.setPair _ _ _ (fun _ h => h) (fun h => by rw [h]; rfl) hs
  case nnSP =>
    obtain ⟨_, _, _, h1, rfl⟩ := h
    obtain ⟨h2, h3, rfl⟩ := memWrite16_eq_ok.mp h1
    exact hP.setByte _ _ _ rfl h3 (hP.setByte _ _ _ rfl h2 hs)
  case spHL =>
    obtain ⟨_, _, rfl⟩ := h
    exact hP.setPair s .sp _ nofun (fun _ => rfl) hs
  case hlSPe =>
    obtain ⟨_, _, rfl⟩ := h
    exact hP.setFlags _ _ nofun (hP.setPair _ _ _ (fun _ h => h) nofun hs)

theorem ArmClosed.armPush {k : StkReg} (hP : ArmClosed (.push k) P) {s : State} {r : Result}
    (h : armPush k s = .ok r) (hs : P s) : P r.state := by
  simp only [Machine.armPush, bind_eq_ok, pure_eq_ok, Except.ok.injEq] at h
  obtain ⟨_, _, _, h1, rfl⟩ := h
  exact hP.pushed h1 rfl rfl hs

theorem ArmClosed.armPop {k : StkReg} (hP : ArmClosed (.pop k) P) {s : State} {r : Result}
    (h : armPop k s = .ok r) (hs : P s) : P r.state := by
  simp only [Machine.armPop, bind_eq_ok, pure_eq_ok, Except.ok.injEq] at h
  obtain ⟨_, h1, rfl⟩ := h
  have h2 := hP.popped h1 rfl hs
  cases k <;> simp only [State.setStk]
  case af => exact hP.setFlags _ _ nofun (hP.setReg _ _ _ rfl h2)
  all_goals exact hP.setPair _ _ _ (fun _ h => h) nofun h2

/-- An operand that no access moves. -/
theorem moves_false {t : Loc8} (h : t.isAluSource = true ∨ t.isReadModifyWrite = true) (r : Reg8) :
    t.moves r = false := by
  cases t <;> simp_all [Loc8.isAluSource, Loc8.isReadModifyWrite, Loc8.moves]

theorem ArmClosed.armAlu {op : AluOp} {src : Loc8} (hP : ArmClosed (.alu op src) P) (ha : src.isAluSource = true)
    {s : State} {r : Result} (h : armAlu op src s = .ok r) (hs : P s) : P r.state := by
  simp only [Machine.armAlu, bind_eq_ok, pure_eq_ok, Except.ok.injEq] at h
  obtain ⟨_, h1, _, _, _, _, rfl⟩ := h
  have h2 := hP.readLoc h1 (fun r h => by rw [moves_false (.inl ha)] at h; cases h) hs
  refine hP.setFlags _ _ nofun ?_
  cases op <;> simp only [Machine.storeAluResult]
  case cp => exact h2
  all_goals exact hP.setReg _ _ _ rfl h2

/-- The common shape of the read-modify-write arms. -/
theorem ArmClosed.readWrite {t : Loc8} (hP : ArmClosed o P) (ht : t.isReadModifyWrite = true) {i : Op} {v : Byte}
    {s s2 : State} {p : Byte × State} (h1 : Machine.readLoc t s = .ok p) (h2 : Machine.writeLoc i t v p.2 = .ok s2)
    (hr : ∀ r, t = .reg r → o.writesReg r = true) (hm : t.isRegister = false → o.stores = true) (hs : P s) : P s2 := by
  refine hP.writeLoc h2 ?_ hm (hP.readLoc h1 (fun r h => by rw [moves_false (.inr ht)] at h; cases h) hs)
  rintro r (h | h)
  · exact hr r h
  · rw [moves_false (.inr ht)] at h
    cases h

/-- An arm that reads and writes back its operand and then writes flags. -/
theorem ArmClosed.armInc8 {t : Loc8} (hP : ArmClosed (.inc8 t) P) (ht : t.isReadModifyWrite = true) {s : State}
    {r : Result} (h : armInc8 t s = .ok r) (hs : P s) : P r.state := by
  simp only [Machine.armInc8, bind_eq_ok, pure_eq_ok, Except.ok.injEq] at h
  obtain ⟨_, h1, _, h2, rfl⟩ := h
  refine hP.setFlags _ _ (fun g hg => by cases g <;> first | rfl | cases hg) (hP.readWrite ht h1 h2 ?_ ?_ hs)
  · rintro r rfl
    simp [Op.writesReg]
  · intro h
    simp [Op.stores, h]

theorem ArmClosed.armDec8 {t : Loc8} (hP : ArmClosed (.dec8 t) P) (ht : t.isReadModifyWrite = true) {s : State}
    {r : Result} (h : armDec8 t s = .ok r) (hs : P s) : P r.state := by
  simp only [Machine.armDec8, bind_eq_ok, pure_eq_ok, Except.ok.injEq] at h
  obtain ⟨_, h1, _, h2, rfl⟩ := h
  refine hP.setFlags _ _ (fun g hg => by cases g <;> first | rfl | cases hg) (hP.readWrite ht h1 h2 ?_ ?_ hs)
  · rintro r rfl
    simp [Op.writesReg]
  · intro h
    simp [Op.stores, h]

theorem ArmClosed.armJp {cc : Cond} {f : JpForm} (hP : ArmClosed (.jp cc f) P) {s : State} {r : Result}
    (h : armJp cc f s = .ok r) (hs : P s) : P r.state := by
  have hi : cc = .alwaysIe → writesIme (.jp cc f) = true := fun h => by rw [h]; rfl
  cases f <;> simp only [Machine.armJp, armJpImm, armJpHl, armJr, bind_eq_ok, pure_eq_ok, Except.ok.injEq] at h
  case imm16 =>
    obtain ⟨_, _, _, h1, rfl⟩ := h
    split <;> exact hP.evalCond h1 hi hs
  case hl =>
    obtain ⟨⟨taken, s1⟩, h1, h⟩ := h
    cases taken <;> simp only [Bool.false_eq_true, if_false, if_true, bind_eq_ok, Except.ok.injEq] at h
    · subst h
      exact hP.evalCond h1 hi hs
    · obtain ⟨_, _, rfl⟩ := h
      exact hP.evalCond h1 hi hs
  case rel8 =>
    obtain ⟨_, _, _, h1, rfl⟩ := h
    split <;> exact hP.evalCond h1 hi hs

theorem ArmClosed.armCall {cc : Cond} (hP : ArmClosed (.call cc) P) {s : State} {r : Result}
    (h : armCall cc s = .ok r) (hs : P s) : P r.state := by
  simp only [Machine.armCall, bind_eq_ok, pure_eq_ok] at h
  obtain ⟨_, _, ⟨taken, s1⟩, h1, h⟩ := h
  have h3 := hP.evalCond h1 (fun h => by rw [h]; rfl) hs
  cases taken <;> simp only [Bool.false_eq_true, if_false, if_true, bind_eq_ok, Except.ok.injEq] at h
  · subst h
    exact h3
  · obtain ⟨_, h2, rfl⟩ := h
    exact hP.pushed h2 rfl rfl h3

theorem ArmClosed.armRet {cc : Cond} (hP : ArmClosed (.ret cc) P) {s : State} {r : Result}
    (h : armRet cc s = .ok r) (hs : P s) : P r.state := by
  simp only [Machine.armRet, bind_eq_ok, pure_eq_ok] at h
  obtain ⟨⟨taken, s1⟩, h1, h⟩ := h
  have h3 := hP.evalCond h1 (fun h => by rw [h]; rfl) hs
  cases taken <;> simp only [Bool.false_eq_true, if_false, if_true, bind_eq_ok, Except.ok.injEq] at h
  · subst h
    exact h3
  · obtain ⟨_, h2, rfl⟩ := h
    exact hP.popped h2 rfl h3

theorem ArmClosed.armCb {op : CbOp} {t : Loc8} (hP : ArmClosed (.cb op t) P) (ht : t.isReadModifyWrite = true)
    {s : State} {r : Result} (h : armCb op t s = .ok r) (hs : P s) : P r.state := by
  cases op <;> simp only [Machine.armCb, armCbRotate, armCbRotateCarry, armCbBit, armCbModify, bind_eq_ok, pure_eq_ok,
    Except.ok.injEq] at h
  case bit =>
    obtain ⟨_, h1, rfl⟩ := h
    exact hP.setFlags _ _ (fun g hg => by cases g <;> first | rfl | cases hg)
      (hP.readLoc h1 (fun r h => by rw [moves_false (.inr ht)] at h; cases h) hs)
  case res =>
    obtain ⟨_, h1, _, h2, rfl⟩ := h
    exact hP.readWrite ht h1 h2 (fun r h => by simp [Op.writesReg, h]) (fun h => by simp [Op.stores, h]) hs
  case set =>
    obtain ⟨_, h1, _, h2, rfl⟩ := h
    exact hP.readWrite ht h1 h2 (fun r h => by simp [Op.writesReg, h]) (fun h => by simp [Op.stores, h]) hs
  case rl =>
    obtain ⟨_, h1, _, _, _, h2, rfl⟩ := h
    exact hP.setFlags _ _ nofun
      (hP.readWrite ht h1 h2 (fun r h => by simp [Op.writesReg, h]) (fun h => by simp [Op.stores, h]) hs)
  case rr =>
    obtain ⟨_, h1, _, _, _, h2, rfl⟩ := h
    exact hP.setFlags _ _ nofun
      (hP.readWrite ht h1 h2 (fun r h => by simp [Op.writesReg, h]) (fun h => by simp [Op.stores, h]) hs)
  all_goals
    obtain ⟨_, h1, _, h2, rfl⟩ := h
    exact hP.setFlags _ _ nofun
      (hP.readWrite ht h1 h2 (fun r h => by simp [Op.writesReg, h]) (fun h => by simp [Op.stores, h]) hs)

/-- The arms that read A and some flags, and write A and flags. -/
theorem ArmClosed.accumulator (hP : ArmClosed o P) (s : State) (v : Byte) (w : FlagWrite)
    (hr : o.writesReg .a = true) (hw : ∀ g, o.touches g = false → w.get g = none) (hs : P s) :
    P ((s.setReg .a v).setFlags w) := hP.setFlags _ _ hw (hP.setReg _ _ _ hr hs)

/-- Every arm keeps what the updates allowed to its instruction keep. -/
theorem ArmClosed.arm (hP : ArmClosed o P) (ha : o.admitted = true) {s : State} {r : Result}
    (h : arm o s = .ok r) (hs : P s) : P r.state := by
  cases o with
  | ld8 dst src => exact hP.armLd8 h hs
  | ld16 w => exact hP.armLd16 h hs
  | push k => exact hP.armPush h hs
  | pop k => exact hP.armPop h hs
  | alu op src => exact hP.armAlu ha h hs
  | inc8 t => exact hP.armInc8 ha h hs
  | dec8 t => exact hP.armDec8 ha h hs
  | daa =>
    simp only [Machine.arm, armDaa, bind_eq_ok, pure_eq_ok, Except.ok.injEq] at h
    obtain ⟨_, _, _, _, _, _, _, _, rfl⟩ := h
    exact hP.accumulator _ _ _ rfl (fun g hg => by cases g <;> first | rfl | cases hg) hs
  | cpl =>
    simp only [Machine.arm, armCpl, bind_eq_ok, pure_eq_ok, Except.ok.injEq] at h
    obtain ⟨_, _, rfl⟩ := h
    exact hP.accumulator _ _ _ rfl (fun g hg => by cases g <;> first | rfl | cases hg) hs
  | scf =>
    simp only [Machine.arm, armScf, Except.ok.injEq] at h
    subst h
    exact hP.setFlags _ _ (fun g hg => by cases g <;> first | rfl | cases hg) hs
  | ccf =>
    simp only [Machine.arm, armCcf, bind_eq_ok, pure_eq_ok, Except.ok.injEq] at h
    obtain ⟨_, _, rfl⟩ := h
    exact hP.setFlags _ _ (fun g hg => by cases g <;> first | rfl | cases hg) hs
  | rlca =>
    simp only [Machine.arm, armRlca, bind_eq_ok, pure_eq_ok, Except.ok.injEq] at h
    obtain ⟨_, _, rfl⟩ := h
    exact hP.accumulator _ _ _ rfl nofun hs
  | rrca =>
    simp only [Machine.arm, armRrca, bind_eq_ok, pure_eq_ok, Except.ok.injEq] at h
    obtain ⟨_, _, rfl⟩ := h
    exact hP.accumulator _ _ _ rfl nofun hs
  | rla =>
    simp only [Machine.arm, armRla, bind_eq_ok, pure_eq_ok, Except.ok.injEq] at h
    obtain ⟨_, _, _, _, rfl⟩ := h
    exact hP.accumulator _ _ _ rfl nofun hs
  | rra =>
    simp only [Machine.arm, armRra, bind_eq_ok, pure_eq_ok, Except.ok.injEq] at h
    obtain ⟨_, _, _, _, rfl⟩ := h
    exact hP.accumulator _ _ _ rfl nofun hs
  | inc16 k =>
    simp only [Machine.arm, armInc16, bind_eq_ok, pure_eq_ok, Except.ok.injEq] at h
    obtain ⟨_, _, rfl⟩ := h
    exact hP.setPair _ _ _ (fun _ h => h) (fun h => by rw [h]; rfl) hs
  | dec16 k =>
    simp only [Machine.arm, armDec16, bind_eq_ok, pure_eq_ok, Except.ok.injEq] at h
    obtain ⟨_, _, rfl⟩ := h
    exact hP.setPair _ _ _ (fun _ h => h) (fun h => by rw [h]; rfl) hs
  | add16 k =>
    simp only [Machine.arm, armAdd16, bind_eq_ok, pure_eq_ok, Except.ok.injEq] at h
    obtain ⟨_, _, _, _, rfl⟩ := h
    exact hP.setFlags _ _ (fun g hg => by cases g <;> first | rfl | cases hg)
      (hP.setPair _ _ _ (fun _ h => h) nofun hs)
  | addSp =>
    simp only [Machine.arm, armAddSp, bind_eq_ok, pure_eq_ok, Except.ok.injEq] at h
    obtain ⟨_, _, rfl⟩ := h
    exact hP.setFlags _ _ nofun (hP.setPair s .sp _ nofun (fun _ => rfl) hs)
  | jp cc f => exact hP.armJp h hs
  | call cc => exact hP.armCall h hs
  | ret cc => exact hP.armRet h hs
  | rst t =>
    simp only [Machine.arm, armRst, bind_eq_ok, pure_eq_ok, Except.ok.injEq] at h
    obtain ⟨_, h1, rfl⟩ := h
    exact hP.pushed h1 rfl rfl hs
  | nop =>
    simp only [Machine.arm, armNop, Except.ok.injEq] at h
    subst h
    exact hs
  | halt =>
    simp only [Machine.arm, armHalt, Except.ok.injEq] at h
    subst h
    exact hP.setHalted _ rfl hs
  | stop =>
    simp only [Machine.arm, armStop, Except.ok.injEq] at h
    subst h
    exact hP.setStopped _ rfl hs
  | di =>
    simp only [Machine.arm, armDi, Except.ok.injEq] at h
    subst h
    exact hP.setIme _ _ rfl hs
  | ei =>
    simp only [Machine.arm, armEi, Except.ok.injEq] at h
    subst h
    exact hP.setIme _ _ rfl hs
  | cb op t => exact hP.armCb ha h hs

end Sys2Proof.Machine
end

