-- ==== Sys2Proof/Laws/Dispatch.lean ====
section
/-! SUPPORT. Execution and the dispatch: every row runs the engine on its decoded value; what execute, exec and step can
answer; and the packaged induction over them. -/

namespace Sys2Proof.Machine

/-- Execution of a row is the engine on the row's decoded value. -/
theorem exec_eq_execute {i : Instr} {o : Op} (h : i.op = some o) (s : State) : exec i s = execute o s := by
  cases i <;> cases h <;> rfl

/-- The rows with no decoded value. -/
theorem op_eq_none {i : Instr} (h : i.op = none) : (∃ code, i = .illegal code) ∨ i = .prefixCb := by
  cases i <;> first | exact .inl ⟨_, rfl⟩ | exact .inr rfl | exact absurd h (by simp [Instr.op])

/-- What execute answers when it answers a next state: nothing but the guard's no-op, or the arm's result committed. -/
theorem execute_eq_next {o : Op} {s t : State} (h : execute o s = .next t) :
    (s.running = false ∧ t = s.commit s.pc 0) ∨
    (s.running = true ∧ o.admitted = true ∧ ∃ r, arm o s = .ok r ∧ t = r.state.commit r.nextPc r.extra) := by
  unfold execute at h
  split at h
  · next hr =>
    split at h
    · next ha =>
      unfold finish at h
      split at h
      · next r hm =>
        cases h
        exact .inr ⟨hr, ha, r, hm, rfl⟩
      · cases h
    · cases h
  · next hr =>
    cases h
    exact .inl ⟨by simpa using hr, rfl⟩

/-- While halted or stopped, execute changes nothing but the record of the extra cycles (R82). -/
theorem execute_of_not_running (o : Op) {s : State} (h : s.running = false) : execute o s = .next (s.commit s.pc 0) := by
  simp [execute, h]

/-- While running, an admitted value runs its arm. -/
theorem execute_of_running {o : Op} {s : State} (h : s.running = true) (ha : o.admitted = true) :
    execute o s = finish (arm o s) := by
  simp [execute, h, ha]

/-- No decoded value is refused. -/
theorem execute_ne_refused (o : Op) (s : State) (r : Refusal) : execute o s ≠ .refused r := by
  unfold execute finish
  cases s.running <;> cases o.admitted <;> cases arm o s <;> nofun

theorem finish_ok {r : Result} : finish (.ok r) = .next (r.state.commit r.nextPc r.extra) := rfl

/-- A property that the updates allowed to an instruction and the commit keep is kept by execute. -/
theorem execute_keeps {P : State → Prop} {o : Op} (hP : ArmClosed o P) (hc : ∀ s p x, P s → P (s.commit p x))
    {s t : State} (h : execute o s = .next t) (hs : P s) : P t := by
  rcases execute_eq_next h with ⟨_, rfl⟩ | ⟨_, ha, r, hr, rfl⟩
  · exact hc _ _ _ hs
  · exact hc _ _ _ (hP.arm ha hr hs)

/-- The escape row runs the engine on the prefixed instruction it fetches. -/
theorem exec_prefixCb_eq {s : State} {o : Op} (h : fetchPrefixed s = .ok o) : exec .prefixCb s = execute o s := by
  show execPrefixCb s = _
  rw [execPrefixCb, h]

/-- A property that the primitive updates and the commit keep is kept by exec. -/
theorem exec_keeps {P : State → Prop} (hP : ∀ o, ArmClosed o P) (hc : ∀ s p x, P s → P (s.commit p x)) {i : Instr}
    {s t : State} (h : exec i s = .next t) (hs : P s) : P t := by
  cases ho : i.op with
  | some o =>
    rw [exec_eq_execute ho] at h
    exact execute_keeps (hP _) hc h hs
  | none =>
    rcases op_eq_none ho with ⟨code, rfl⟩ | rfl
    · exact absurd h (by simp [exec, execIllegal, finish])
    · cases hf : fetchPrefixed s with
      | ok o =>
        rw [exec_prefixCb_eq hf] at h
        exact execute_keeps (hP _) hc h hs
      | error f =>
        simp only [exec, execPrefixCb, hf] at h
        cases h

/-- What step answers when it answers a next state. -/
theorem step_eq_next {s t : State} (h : step s = .next t) :
    ∃ i code prefixed u, fetchInstr s = .ok (i, code, prefixed) ∧ exec i s = .next u ∧
      t = { u with lastCycles := stepCycles u.cfg s.running code prefixed u.lastExtra } := by
  unfold step at h
  split at h
  · next i code prefixed hf =>
    cases hx : exec i s with
    | next u =>
      rw [hx] at h
      cases h
      exact ⟨i, code, prefixed, u, hf, hx, rfl⟩
    | fault f =>
      rw [hx] at h
      cases h
    | refused r =>
      rw [hx] at h
      cases h
  · cases h

/-- A property that the primitive updates, the commit and the cycle record keep is kept by step. -/
theorem step_keeps {P : State → Prop} (hP : ∀ o, ArmClosed o P) (hc : ∀ s p x, P s → P (s.commit p x))
    (hl : ∀ (s : State) n, P s → P { s with lastCycles := n }) {s t : State} (h : step s = .next t) (hs : P s) :
    P t := by
  obtain ⟨i, code, prefixed, u, _, hx, rfl⟩ := step_eq_next h
  exact hl _ _ (exec_keeps hP hc hx hs)

end Sys2Proof.Machine
end

