-- ==== Sys2Proof/Laws/Answers.lean ====
section
/-! SUPPORT. One lemma per shared operation in the form claims use: the checks it makes, in order, and what it gives when all
of them pass. They compose along `do`, so an arm's answer is read off from those of its operations. -/

namespace Sys2Proof.Machine

/-- The computation passes the checks and gives `a`, or raises the fault of the first that does not pass. -/
def Yields {α : Type} (x : Except Fault α) (cs : List (Option Fault)) (a : α) : Prop :=
  (firstFault cs = none → x = .ok a) ∧ ∀ f, firstFault cs = some f → x = .error f

@[simp] theorem firstFault_nil : firstFault [] = none := rfl
@[simp] theorem firstFault_none (cs : List (Option Fault)) : firstFault (none :: cs) = firstFault cs := rfl
@[simp] theorem firstFault_some (f : Fault) (cs : List (Option Fault)) : firstFault (some f :: cs) = some f := rfl

theorem firstFault_append (cs ds : List (Option Fault)) :
    firstFault (cs ++ ds) = match firstFault cs with | none => firstFault ds | some f => some f := by
  induction cs with
  | nil => rfl
  | cons c cs ih => cases c <;> simp [ih]

/-- All checks of a list pass exactly when each does. -/
theorem firstFault_eq_none (cs : List (Option Fault)) : firstFault cs = none ↔ ∀ c ∈ cs, c = none := by
  induction cs with
  | nil => simp
  | cons c cs ih => cases c <;> simp [ih]

theorem Yields.ok {α : Type} (a : α) : Yields (.ok a) [] a := ⟨fun _ => rfl, fun f h => by simp at h⟩

/-- The checks of a sequence are those of its first part and then those of the rest, which may count on the first having
passed. -/
theorem Yields.bindPassed {α β : Type} {x : Except Fault α} {k : α → Except Fault β} {cs ds : List (Option Fault)}
    {a : α} {b : β} (hx : Yields x cs a) (hk : firstFault cs = none → Yields (k a) ds b) :
    Yields (x >>= k) (cs ++ ds) b := by
  rcases h : firstFault cs with _ | f
  · rw [Yields, firstFault_append, h, hx.1 h]
    exact hk h
  · rw [Yields, firstFault_append, h, hx.2 f h]
    exact ⟨fun e => by simp at e, fun g e => by cases e; rfl⟩

theorem Yields.bind {α β : Type} {x : Except Fault α} {k : α → Except Fault β} {cs ds : List (Option Fault)} {a : α}
    {b : β} (hx : Yields x cs a) (hk : Yields (k a) ds b) : Yields (x >>= k) (cs ++ ds) b :=
  hx.bindPassed fun _ => hk

/-- A last pure step adds no check. -/
theorem Yields.map {α β : Type} {x : Except Fault α} {k : α → Except Fault β} {cs : List (Option Fault)} {a : α}
    {b : β} (hx : Yields x cs a) (hk : k a = .ok b) : Yields (x >>= k) cs b := by
  have := hx.bind (k := k) (hk ▸ Yields.ok b)
  rwa [List.append_nil] at this

theorem Yields.of_eq {α : Type} {x y : Except Fault α} {cs : List (Option Fault)} {a : α} (hx : Yields x cs a)
    (h : y = x) : Yields y cs a := h ▸ hx

/-! ## The primitives -/

theorem yields_readReg (r : Reg8) (s : State) : Yields (readReg r s) [s.regCheck r] (s.reg r) := by
  unfold Yields readReg State.regCheck
  cases s.holds (.reg r) <;> simp

theorem yields_readFlag (g : FlagName) (s : State) : Yields (readFlag g s) [s.flagCheck g] (s.flag g) := by
  unfold Yields readFlag State.flagCheck
  cases s.holds (.flag g) <;> simp

theorem yields_memRead (k : AccessKind) (a : Word) (s : State) : Yields (memRead k a s) [s.memCheck k a] (s.byteAt a) := by
  unfold Yields memRead State.memCheck
  cases s.mapped a <;> simp

theorem yields_memWrite (a : Word) (v : Byte) (s : State) :
    Yields (memWrite a v s) [s.memCheck .write a] (s.setByte a v) := by
  unfold Yields memWrite State.memCheck
  cases s.mapped a <;> simp

theorem yields_readPair (r : Reg16) (s : State) : Yields (readPair r s) (s.pairChecks r) (s.pair r) := by
  cases r
  case sp => exact Yields.ok _
  all_goals exact (yields_readReg _ s).bind ((yields_readReg _ s).map rfl)

theorem yields_readStk (r : StkReg) (s : State) : Yields (readStk r s) (s.stkChecks r) (s.stk r) := by
  cases r
  · exact yields_readPair .bc s
  · exact yields_readPair .de s
  · exact yields_readPair .hl s
  · exact (yields_readReg .a s).bind ((yields_readFlag .z s).bind ((yields_readFlag .n s).bind
      ((yields_readFlag .h s).bind ((yields_readFlag .c s).map rfl))))

theorem yields_fetchImm8 (s : State) : Yields (fetchImm8 s) s.imm8Checks (s.byteAt (s.pc + 1)) := yields_memRead _ _ s

theorem yields_fetchImm16 (s : State) : Yields (fetchImm16 s) s.imm16Checks (s.wordAt (s.pc + 1)) := by
  have h : s.imm16Checks = [s.memCheck .fetch (s.pc + 1)] ++ [s.memCheck .fetch (s.pc + 1 + 1)] := by
    rw [add_one_add_one]
    rfl
  rw [h]
  exact (yields_memRead _ _ s).bind ((yields_memRead _ _ s).map rfl)

theorem yields_memWrite16 (a w : Word) (s : State) :
    Yields (memWrite16 a w s) [s.memCheck .write a, s.memCheck .write (a + 1)]
      ((s.setByte a (lo8 w)).setByte (a + 1) (hi8 w)) :=
  (yields_memWrite a (lo8 w) s).bind (yields_memWrite (a + 1) (hi8 w) (s.setByte a (lo8 w)))

theorem yields_push16 (w : Word) (s : State) : Yields (push16 w s) s.pushChecks (s.pushed w) := by
  have h := (yields_memWrite (s.sp - 1) (hi8 w) { s with sp := s.sp - 1 }).bind (k := push8 (lo8 w))
    (yields_memWrite (s.sp - 1 - 1) (lo8 w)
      { ({ s with sp := s.sp - 1 } : State).setByte (s.sp - 1) (hi8 w) with sp := s.sp - 1 - 1 })
  rw [sub_one_sub_one] at h
  exact h

theorem yields_pop16 (s : State) : Yields (pop16 s) s.popChecks (s.wordAt s.sp, { s with sp := s.sp + 2 }) := by
  refine Yields.bind (cs := [s.memCheck .read s.sp]) (a := (s.byteAt s.sp, { s with sp := s.sp + 1 }))
    ((yields_memRead .read s.sp s).map rfl) ?_
  refine Yields.map (a := (s.byteAt (s.sp + 1), { s with sp := s.sp + 1 + 1 }))
    ((yields_memRead .read (s.sp + 1) { s with sp := s.sp + 1 }).map rfl) ?_
  rw [add_one_add_one]
  rfl

theorem yields_evalCond (cc : Cond) (s : State) :
    Yields (evalCond cc s) (s.condChecks cc) (s.cond cc, s.afterCond cc) := by
  cases cc
  case always => exact Yields.ok _
  case alwaysIe => exact Yields.ok _
  case nz => exact (yields_readFlag .z s).map rfl
  case z => exact (yields_readFlag .z s).map rfl
  case nc => exact (yields_readFlag .c s).map rfl
  case c => exact (yields_readFlag .c s).map rfl

/-! ## Operands -/

/-- The place of a memory operand. -/
theorem yields_locPlace {t : Loc8} (h : t.isRegister = false) (s : State) :
    Yields (locPlace t s) (s.placeChecks t) (.mem (s.address t)) := by
  cases t <;> try (simp [Loc8.isRegister] at h; done)
  case indBC => exact (yields_readPair .bc s).map rfl
  case indDE => exact (yields_readPair .de s).map rfl
  case abs16 => exact (yields_fetchImm16 s).map rfl
  case highImm => exact (yields_fetchImm8 s).map rfl
  case highC => exact (yields_readReg .c s).map rfl
  all_goals exact (yields_readPair .hl s).map rfl

theorem yields_readLoc (t : Loc8) (s : State) : Yields (readLoc t s) (s.readChecks t) (s.operand t, locAfter t s) := by
  cases t
  case reg r => exact (yields_readReg r s).map rfl
  case imm8 => exact (yields_fetchImm8 s).map rfl
  all_goals exact (yields_locPlace rfl s).bind ((yields_memRead .read _ s).map rfl)

/-- A store to a memory operand. -/
theorem yields_writeLoc {t : Loc8} (h : t.isRegister = false) (i : Op) (v : Byte) (s : State) :
    Yields (writeLoc i t v s) (s.placeChecks t ++ [s.memCheck .write (s.address t)])
      (locAfter t (s.setByte (s.address t) v)) := by
  have h1 : writeLoc i t v s = (do
      let p ← locPlace t s
      match p with
      | .reg r => return s.setReg r v
      | .mem a => return locAfter t (← memWrite a v s)
      | .immediate => raise (.operand i)) := rfl
  rw [h1]
  exact (yields_locPlace h s).bind ((yields_memWrite _ v s).map rfl)

/-- Writing back an operand whose read has passed its checks raises nothing. -/
theorem writeLoc_back {t : Loc8} (ht : t.isReadModifyWrite = true) (i : Op) (v : Byte) {s : State}
    (hr : firstFault (s.readChecks t) = none) : writeLoc i t v s = .ok (s.putOperand t v) := by
  cases t <;> try (simp [Loc8.isReadModifyWrite] at ht; done)
  case reg r => rfl
  case indHL =>
    refine (yields_writeLoc (t := .indHL) rfl i v s).1 ?_
    simp only [State.readChecks, State.placeChecks, State.pairChecks, firstFault_eq_none, List.cons_append,
      List.nil_append, List.mem_cons, List.not_mem_nil, or_false, forall_eq_or_imp, forall_eq] at hr ⊢
    refine ⟨hr.1, hr.2.1, ?_⟩
    have h := hr.2.2
    unfold State.memCheck at h ⊢
    split <;> simp_all

/-! ## From an arm to the instruction -/

/-- An instruction answers what its arm yields, committed. -/
theorem answers_of_arm {i : Instr} {o : Op} {s : State} {cs : List (Option Fault)} {r : Result} (hi : i.op = some o)
    (hs : s.running = true) (ha : o.admitted = true) (h : Yields (arm o s) cs r) :
    Answers (exec i s) cs (r.state.commit r.nextPc r.extra) := by
  rw [exec_eq_execute hi, execute_of_running hs ha]
  exact ⟨fun e => by rw [h.1 e]; rfl, fun f e => by rw [h.2 f e]; rfl⟩

/-- Every decoded value of a row but a prefixed one is admitted. -/
theorem admitted_of_op {i : Instr} {o : Op} (hi : i.op = some o) (ht : ∀ k t, o = .cb k t → t.isReadModifyWrite = true) :
    o.admitted = true := by
  cases i <;> cases hi <;> first | rfl | exact ht _ _ rfl

end Sys2Proof.Machine
end

