-- ==== Sys2Proof/Laws/ArmAnswers.lean ====
section
/-! SUPPORT. One lemma per arm: the checks it makes and the result it gives, in the machine's own operations. A statement about
an instruction follows from its arm's lemma and the arithmetic of its rule. -/

namespace Sys2Proof.Machine

/-! ## Loads, stores and the stack -/

/-- A byte load into a register. -/
theorem yields_armLd8_load (rd : Reg8) (src : Loc8) (s : State) :
    Yields (armLd8 (.reg rd) src s) (s.readChecks src)
      ⟨(locAfter src s).setReg rd (s.operand src), s.seqPc (.ld8 (.reg rd) src), 0⟩ := by
  have h0 : formStoreAddress (.reg rd) src s = .ok () := by cases src <;> rfl
  unfold armLd8
  rw [h0]
  exact (yields_readLoc src s).map rfl

/-- A byte store of a register. -/
theorem yields_armLd8_store {dst : Loc8} (h : dst.isRegister = false) (r : Reg8) (s : State) :
    Yields (armLd8 dst (.reg r) s) (s.placeChecks dst ++ [s.regCheck r, s.memCheck .write (s.address dst)])
      ⟨locAfter dst (s.setByte (s.address dst) (s.reg r)), s.seqPc (.ld8 dst (.reg r)), 0⟩ := by
  unfold armLd8
  refine Yields.bindPassed (a := ()) ((yields_locPlace h s).map rfl) fun hp => ?_
  refine Yields.bind (cs := [s.regCheck r]) (yields_readLoc (.reg r) s) (Yields.map ?_ rfl)
  have := yields_writeLoc h (.ld8 dst (.reg r)) (s.reg r) s
  rw [Yields, firstFault_append, hp] at this
  exact this

/-- LD (HL),n. -/
theorem yields_armLd8_storeImm (s : State) :
    Yields (armLd8 .indHL .imm8 s)
      (s.imm8Checks ++ (s.pairChecks .hl ++ [s.memCheck .write (s.pair .hl)]))
      ⟨s.setByte (s.pair .hl) (s.byteAt (s.pc + 1)), s.seqPc (.ld8 .indHL .imm8), 0⟩ :=
  (yields_readLoc .imm8 s).bind ((yields_writeLoc (t := .indHL) rfl _ _ s).map rfl)

theorem yields_armLd16Imm (k : Reg16) (s : State) :
    Yields (armLd16Imm k s) s.imm16Checks ⟨s.setPair k (s.wordAt (s.pc + 1)), s.seqPc (.ld16 (.imm k)), 0⟩ :=
  (yields_fetchImm16 s).map rfl

theorem yields_armLd16NnSp (s : State) :
    Yields (armLd16NnSp s)
      (s.imm16Checks ++ [s.memCheck .write (s.wordAt (s.pc + 1)), s.memCheck .write (s.wordAt (s.pc + 1) + 1)])
      ⟨(s.setByte (s.wordAt (s.pc + 1)) (lo8 s.sp)).setByte (s.wordAt (s.pc + 1) + 1) (hi8 s.sp),
        s.seqPc (.ld16 .nnSP), 0⟩ :=
  (yields_fetchImm16 s).bind ((yields_memWrite16 _ _ s).map rfl)

theorem yields_armLd16SpHl (s : State) :
    Yields (armLd16SpHl s) (s.pairChecks .hl) ⟨s.setPair .sp (s.pair .hl), s.seqPc (.ld16 .spHL), 0⟩ :=
  (yields_readPair .hl s).map rfl

theorem yields_armLd16HlSpE (s : State) :
    Yields (armLd16HlSpE s) s.imm8Checks
      ⟨(s.setPair .hl (spOffset s.sp (s.byteAt (s.pc + 1))).result).setFlags
        (spOffset s.sp (s.byteAt (s.pc + 1))).flags, s.seqPc (.ld16 .hlSPe), 0⟩ :=
  (yields_fetchImm8 s).map rfl

theorem yields_armPush (k : StkReg) (s : State) :
    Yields (armPush k s) (s.stkChecks k ++ s.pushChecks) ⟨s.pushed (s.stk k), s.seqPc (.push k), 0⟩ :=
  (yields_readStk k s).bind ((yields_push16 _ s).map rfl)

theorem yields_armPop (k : StkReg) (s : State) :
    Yields (armPop k s) s.popChecks
      ⟨({ s with sp := s.sp + 2 } : State).setStk k (s.wordAt s.sp), s.seqPc (.pop k), 0⟩ :=
  (yields_pop16 s).map rfl

/-! ## Arithmetic -/

theorem yields_aluCarry (op : AluOp) (s : State) :
    Yields (aluCarry op s) (if readsCarry op then [s.flagCheck .c] else []) (readsCarry op && s.f.c) := by
  cases op <;> first | exact Yields.ok _ | exact yields_readFlag .c s

/-- The carry argument matters to the operations that read it only. -/
theorem alu8_carry (op : AluOp) (a v : Byte) (c : Bool) : alu8 op a v (readsCarry op && c) = alu8 op a v c := by
  cases op <;> rfl

theorem locAfter_aluSource {src : Loc8} (h : src.isAluSource = true) (s : State) : locAfter src s = s := by
  cases src <;> first | rfl | (simp [Loc8.isAluSource] at h)

theorem locAfter_readModifyWrite {t : Loc8} (h : t.isReadModifyWrite = true) (s : State) : locAfter t s = s := by
  cases t <;> first | rfl | (simp [Loc8.isReadModifyWrite] at h)

theorem yields_armAlu (op : AluOp) {src : Loc8} (h : src.isAluSource = true) (s : State) :
    Yields (armAlu op src s)
      (s.readChecks src ++ ([s.regCheck .a] ++ if readsCarry op then [s.flagCheck .c] else []))
      ⟨(storeAluResult op (alu8 op s.a (s.operand src) s.f.c).result s).setFlags
        (alu8 op s.a (s.operand src) s.f.c).flags, s.seqPc (.alu op src), 0⟩ := by
  refine (yields_readLoc src s).bind ?_
  simp only [locAfter_aluSource h]
  refine (yields_readReg .a s).bind ((yields_aluCarry op s).map ?_)
  rw [alu8_carry]
  rfl

theorem yields_armInc8 {t : Loc8} (h : t.isReadModifyWrite = true) (s : State) :
    Yields (armInc8 t s) (s.readChecks t)
      ⟨(s.putOperand t (inc8Result (s.operand t)).result).setFlags (inc8Result (s.operand t)).flags,
        s.seqPc (.inc8 t), 0⟩ := by
  rw [← List.append_nil (s.readChecks t)]
  refine (yields_readLoc t s).bindPassed fun hr => ?_
  simp only [locAfter_readModifyWrite h, writeLoc_back h _ _ hr]
  exact Yields.ok _

theorem yields_armDec8 {t : Loc8} (h : t.isReadModifyWrite = true) (s : State) :
    Yields (armDec8 t s) (s.readChecks t)
      ⟨(s.putOperand t (dec8Result (s.operand t)).result).setFlags (dec8Result (s.operand t)).flags,
        s.seqPc (.dec8 t), 0⟩ := by
  rw [← List.append_nil (s.readChecks t)]
  refine (yields_readLoc t s).bindPassed fun hr => ?_
  simp only [locAfter_readModifyWrite h, writeLoc_back h _ _ hr]
  exact Yields.ok _

theorem yields_armDaa (s : State) :
    Yields (armDaa s) [s.regCheck .a, s.flagCheck .c, s.flagCheck .n, s.flagCheck .h]
      ⟨(s.setReg .a (daaResult s.a s.f.n s.f.h s.f.c).result).setFlags (daaResult s.a s.f.n s.f.h s.f.c).flags,
        s.seqPc .daa, 0⟩ :=
  (yields_readReg .a s).bind ((yields_readFlag .c s).bind ((yields_readFlag .n s).bind
    ((yields_readFlag .h s).map rfl)))

theorem yields_armCpl (s : State) :
    Yields (armCpl s) [s.regCheck .a] ⟨(s.setReg .a (s.a ^^^ 0xFF)).setFlags (cplResult s.a).flags, s.seqPc .cpl, 0⟩ :=
  (yields_readReg .a s).map rfl

theorem yields_armCcf (s : State) :
    Yields (armCcf s) [s.flagCheck .c] ⟨s.setFlags (ccfFlags s.f.c), s.seqPc .ccf, 0⟩ :=
  (yields_readFlag .c s).map rfl

theorem yields_armRlca (s : State) :
    Yields (armRlca s) [s.regCheck .a]
      ⟨(s.setReg .a (rotLeft s.a).1).setFlags (accRotate (rotLeft s.a)).flags, s.seqPc .rlca, 0⟩ :=
  (yields_readReg .a s).map rfl

theorem yields_armRrca (s : State) :
    Yields (armRrca s) [s.regCheck .a]
      ⟨(s.setReg .a (rotRight s.a).1).setFlags (accRotate (rotRight s.a)).flags, s.seqPc .rrca, 0⟩ :=
  (yields_readReg .a s).map rfl

theorem yields_armRla (s : State) :
    Yields (armRla s) [s.regCheck .a, s.flagCheck .c]
      ⟨(s.setReg .a (rotLeftCarry s.a s.f.c).1).setFlags (accRotate (rotLeftCarry s.a s.f.c)).flags, s.seqPc .rla, 0⟩ :=
  (yields_readReg .a s).bind ((yields_readFlag .c s).map rfl)

theorem yields_armRra (s : State) :
    Yields (armRra s) [s.regCheck .a, s.flagCheck .c]
      ⟨(s.setReg .a (rotRightCarry s.a s.f.c).1).setFlags (accRotate (rotRightCarry s.a s.f.c)).flags,
        s.seqPc .rra, 0⟩ :=
  (yields_readReg .a s).bind ((yields_readFlag .c s).map rfl)

theorem yields_armInc16 (k : Reg16) (s : State) :
    Yields (armInc16 k s) (s.pairChecks k) ⟨s.setPair k (s.pair k + 1), s.seqPc (.inc16 k), 0⟩ :=
  (yields_readPair k s).map rfl

theorem yields_armDec16 (k : Reg16) (s : State) :
    Yields (armDec16 k s) (s.pairChecks k) ⟨s.setPair k (s.pair k - 1), s.seqPc (.dec16 k), 0⟩ :=
  (yields_readPair k s).map rfl

theorem yields_armAdd16 (k : Reg16) (s : State) :
    Yields (armAdd16 k s) (s.pairChecks .hl ++ s.pairChecks k)
      ⟨(s.setPair .hl (s.pair .hl + s.pair k)).setFlags (add16Result (s.pair .hl) (s.pair k)).flags,
        s.seqPc (.add16 k), 0⟩ :=
  (yields_readPair .hl s).bind ((yields_readPair k s).map rfl)

theorem yields_armAddSp (s : State) :
    Yields (armAddSp s) s.imm8Checks
      ⟨(s.setPair .sp (spOffset s.sp (s.byteAt (s.pc + 1))).result).setFlags
        (spOffset s.sp (s.byteAt (s.pc + 1))).flags, s.seqPc .addSp, 0⟩ :=
  (yields_fetchImm8 s).map rfl

/-! ## Control transfer -/

theorem yields_armJpImm (cc : Cond) (s : State) :
    Yields (armJpImm cc s) (s.imm16Checks ++ s.condChecks cc)
      (if s.cond cc then ⟨s.afterCond cc, s.wordAt (s.pc + 1), jpPenalty⟩
        else ⟨s.afterCond cc, s.seqPc (.jp cc .imm16), 0⟩) :=
  (yields_fetchImm16 s).bind ((yields_evalCond cc s).map rfl)

theorem yields_armJr (cc : Cond) (s : State) :
    Yields (armJr cc s) (s.imm8Checks ++ s.condChecks cc)
      (if s.cond cc then ⟨s.afterCond cc, s.seqPc (.jp cc .rel8) + sext16 (s.byteAt (s.pc + 1)), jpPenalty⟩
        else ⟨s.afterCond cc, s.seqPc (.jp cc .rel8), 0⟩) :=
  (yields_fetchImm8 s).bind ((yields_evalCond cc s).map rfl)

/-- JP HL as the decoder gives it. -/
theorem yields_armJpHl (s : State) : Yields (armJpHl .always s) (s.pairChecks .hl) ⟨s, s.pair .hl, jpPenalty⟩ :=
  (Yields.ok _).bind ((yields_readPair .hl s).map rfl)

@[simp] theorem State.afterCond_pairChecks (s : State) (cc : Cond) (k : Reg16) :
    (s.afterCond cc).pairChecks k = s.pairChecks k := by
  cases cc <;> cases k <;> rfl

@[simp] theorem State.afterCond_pushChecks (s : State) (cc : Cond) : (s.afterCond cc).pushChecks = s.pushChecks := by
  cases cc <;> rfl

@[simp] theorem State.afterCond_popChecks (s : State) (cc : Cond) : (s.afterCond cc).popChecks = s.popChecks := by
  cases cc <;> rfl

theorem yields_armCall (cc : Cond) (s : State) :
    Yields (armCall cc s) (s.imm16Checks ++ (s.condChecks cc ++ if s.cond cc then s.pushChecks else []))
      (if s.cond cc then ⟨(s.afterCond cc).pushed (s.seqPc (.call cc)), s.wordAt (s.pc + 1), callPenalty⟩
        else ⟨s.afterCond cc, s.seqPc (.call cc), 0⟩) := by
  refine (yields_fetchImm16 s).bind ((yields_evalCond cc s).bind ?_)
  cases s.cond cc
  · exact Yields.ok _
  · have h := yields_push16 (s.seqPc (.call cc)) (s.afterCond cc)
    rw [State.afterCond_pushChecks] at h
    exact h.map rfl

theorem yields_armRet (cc : Cond) (s : State) :
    Yields (armRet cc s) (s.condChecks cc ++ if s.cond cc then s.popChecks else [])
      (if s.cond cc then ⟨{ s.afterCond cc with sp := s.sp + 2 }, s.wordAt s.sp, callPenalty⟩
        else ⟨s.afterCond cc, s.seqPc (.ret cc), 0⟩) := by
  refine (yields_evalCond cc s).bind ?_
  cases s.cond cc
  · exact Yields.ok _
  · have h := yields_pop16 (s.afterCond cc)
    rw [State.afterCond_popChecks] at h
    refine h.map ?_
    cases cc <;> rfl

theorem yields_armRst (t : Word) (s : State) : Yields (armRst t s) s.pushChecks ⟨s.pushed s.pc, t, 0⟩ :=
  (yields_push16 s.pc s).map rfl

/-! ## The prefixed space -/

theorem yields_armCbRotate (i : Op) {t : Loc8} (h : t.isReadModifyWrite = true) (out : Byte → Byte × Bool) (s : State) :
    Yields (armCbRotate i t out s) (s.readChecks t)
      ⟨(s.putOperand t (out (s.operand t)).1).setFlags (cbRotate (out (s.operand t))).flags, s.seqPc i, 0⟩ := by
  rw [← List.append_nil (s.readChecks t)]
  refine (yields_readLoc t s).bindPassed fun hr => ?_
  simp only [locAfter_readModifyWrite h, writeLoc_back h _ _ hr]
  exact Yields.ok _

theorem yields_armCbRotateCarry (i : Op) {t : Loc8} (h : t.isReadModifyWrite = true) (out : Byte → Bool → Byte × Bool)
    (s : State) :
    Yields (armCbRotateCarry i t out s) (s.readChecks t ++ [s.flagCheck .c])
      ⟨(s.putOperand t (out (s.operand t) s.f.c).1).setFlags (cbRotate (out (s.operand t) s.f.c)).flags,
        s.seqPc i, 0⟩ := by
  refine (yields_readLoc t s).bindPassed fun hr => ?_
  simp only [locAfter_readModifyWrite h]
  refine (yields_readFlag .c s).map ?_
  simp only [writeLoc_back h _ _ hr]
  rfl

theorem yields_armCbBit (b : Fin 8) {t : Loc8} (h : t.isReadModifyWrite = true) (s : State) :
    Yields (armCbBit b t s) (s.readChecks t)
      ⟨s.setFlags (bitFlags b (s.operand t)), s.seqPc (.cb (.bit b) t), 0⟩ := by
  refine (yields_readLoc t s).map ?_
  simp only [locAfter_readModifyWrite h]
  rfl

theorem yields_armCbModify (i : Op) {t : Loc8} (h : t.isReadModifyWrite = true) (f : Byte → Byte) (s : State) :
    Yields (armCbModify i t f s) (s.readChecks t) ⟨s.putOperand t (f (s.operand t)), s.seqPc i, 0⟩ := by
  rw [← List.append_nil (s.readChecks t)]
  refine (yields_readLoc t s).bindPassed fun hr => ?_
  simp only [locAfter_readModifyWrite h, writeLoc_back h _ _ hr]
  exact Yields.ok _

/-! ## What an arm can raise -/

/-- One of the checks a state makes: of a register, of a flag, or of an address. -/
def State.IsCheck (s : State) (c : Option Fault) : Prop :=
  (∃ r, c = s.regCheck r) ∨ (∃ g, c = s.flagCheck g) ∨ ∃ k a, c = s.memCheck k a

theorem State.isCheck_reg (s : State) (r : Reg8) : s.IsCheck (s.regCheck r) := .inl ⟨r, rfl⟩
theorem State.isCheck_flag (s : State) (g : FlagName) : s.IsCheck (s.flagCheck g) := .inr (.inl ⟨g, rfl⟩)
theorem State.isCheck_mem (s : State) (k : AccessKind) (a : Word) : s.IsCheck (s.memCheck k a) := .inr (.inr ⟨k, a, rfl⟩)

/-- Every check of a list is one of the state's. -/
def State.AllChecks (s : State) (cs : List (Option Fault)) : Prop := ∀ c ∈ cs, s.IsCheck c

theorem State.allChecks_nil (s : State) : s.AllChecks [] := nofun

theorem State.allChecks_cons {s : State} {c : Option Fault} {cs : List (Option Fault)} (hc : s.IsCheck c)
    (hcs : s.AllChecks cs) : s.AllChecks (c :: cs) := by
  intro d hd
  rcases List.mem_cons.mp hd with rfl | hd
  · exact hc
  · exact hcs d hd

theorem State.allChecks_append {s : State} {cs ds : List (Option Fault)} (hc : s.AllChecks cs) (hd : s.AllChecks ds) :
    s.AllChecks (cs ++ ds) := by
  intro c h
  rcases List.mem_append.mp h with h | h
  · exact hc c h
  · exact hd c h

theorem State.allChecks_pair (s : State) (k : Reg16) : s.AllChecks (s.pairChecks k) := by
  cases k
  case sp => exact s.allChecks_nil
  all_goals exact allChecks_cons (s.isCheck_reg _) (allChecks_cons (s.isCheck_reg _) s.allChecks_nil)

theorem State.allChecks_imm16 (s : State) : s.AllChecks s.imm16Checks :=
  allChecks_cons (s.isCheck_mem _ _) (allChecks_cons (s.isCheck_mem _ _) s.allChecks_nil)

theorem State.allChecks_imm8 (s : State) : s.AllChecks s.imm8Checks := allChecks_cons (s.isCheck_mem _ _) s.allChecks_nil

theorem State.allChecks_push (s : State) : s.AllChecks s.pushChecks :=
  allChecks_cons (s.isCheck_mem _ _) (allChecks_cons (s.isCheck_mem _ _) s.allChecks_nil)

theorem State.allChecks_pop (s : State) : s.AllChecks s.popChecks :=
  allChecks_cons (s.isCheck_mem _ _) (allChecks_cons (s.isCheck_mem _ _) s.allChecks_nil)

theorem State.allChecks_place (s : State) (t : Loc8) : s.AllChecks (s.placeChecks t) := by
  cases t
  case indBC => exact s.allChecks_pair .bc
  case indDE => exact s.allChecks_pair .de
  case abs16 => exact s.allChecks_imm16
  case highImm => exact s.allChecks_imm8
  case highC => exact allChecks_cons (s.isCheck_reg _) s.allChecks_nil
  case reg r => exact s.allChecks_nil
  case imm8 => exact s.allChecks_nil
  all_goals exact s.allChecks_pair .hl

theorem State.allChecks_read (s : State) (t : Loc8) : s.AllChecks (s.readChecks t) := by
  cases t
  case reg r => exact allChecks_cons (s.isCheck_reg _) s.allChecks_nil
  case imm8 => exact s.allChecks_imm8
  all_goals exact allChecks_append (s.allChecks_place _) (allChecks_cons (s.isCheck_mem _ _) s.allChecks_nil)

theorem State.allChecks_stk (s : State) (k : StkReg) : s.AllChecks (s.stkChecks k) := by
  cases k
  case af =>
    exact allChecks_cons (s.isCheck_reg _) (allChecks_cons (s.isCheck_flag _) (allChecks_cons (s.isCheck_flag _)
      (allChecks_cons (s.isCheck_flag _) (allChecks_cons (s.isCheck_flag _) s.allChecks_nil))))
  case bc => exact s.allChecks_pair .bc
  case de => exact s.allChecks_pair .de
  case hl => exact s.allChecks_pair .hl

theorem State.allChecks_cond (s : State) (cc : Cond) : s.AllChecks (s.condChecks cc) := by
  cases cc
  case always => exact s.allChecks_nil
  case alwaysIe => exact s.allChecks_nil
  all_goals exact allChecks_cons (s.isCheck_flag _) s.allChecks_nil

/-- JP HL under any condition. -/
theorem yields_armJpHl_any (cc : Cond) (s : State) : ∃ cs r, Yields (armJpHl cc s) cs r ∧ s.AllChecks cs := by
  cases hc : s.cond cc
  · refine ⟨_, ⟨s.afterCond cc, s.seqPc (.jp cc .hl), 0⟩, (yields_evalCond cc s).map ?_, s.allChecks_cond cc⟩
    simp only [hc]
    rfl
  · refine ⟨s.condChecks cc ++ s.pairChecks .hl, ⟨s.afterCond cc, (s.afterCond cc).pair .hl, jpPenalty⟩,
      (yields_evalCond cc s).bind ?_, State.allChecks_append (s.allChecks_cond cc) (s.allChecks_pair _)⟩
    simp only [hc]
    have h := yields_readPair .hl (s.afterCond cc)
    rw [State.afterCond_pairChecks] at h
    exact h.map rfl

/-- An admitted byte load or store. -/
theorem yields_armLd8 {dst src : Loc8} (ha : admittedLd8 dst src = true) (s : State) :
    ∃ cs r, Yields (armLd8 dst src s) cs r ∧ s.AllChecks cs := by
  cases hd : dst.isRegister
  · cases src
    case reg r =>
      exact ⟨_, _, yields_armLd8_store hd r s, State.allChecks_append (s.allChecks_place _)
        (State.allChecks_cons (s.isCheck_reg _) (State.allChecks_cons (s.isCheck_mem _ _) s.allChecks_nil))⟩
    case imm8 =>
      cases dst <;> simp [admittedLd8, Loc8.isRegister] at ha hd
      exact ⟨_, _, yields_armLd8_storeImm s, State.allChecks_append s.allChecks_imm8
        (State.allChecks_append (s.allChecks_pair _) (State.allChecks_cons (s.isCheck_mem _ _) s.allChecks_nil))⟩
    all_goals cases dst <;> simp [admittedLd8, Loc8.isRegister] at ha hd
  · cases dst <;> simp [admittedLd8, Loc8.isRegister] at ha hd
    exact ⟨_, _, yields_armLd8_load _ src s, s.allChecks_read src⟩

theorem yields_armCb {op : CbOp} {t : Loc8} (h : t.isReadModifyWrite = true) (s : State) :
    ∃ cs r, Yields (armCb op t s) cs r ∧ s.AllChecks cs := by
  cases op
  case bit b => exact ⟨_, _, yields_armCbBit b h s, s.allChecks_read t⟩
  case res b => exact ⟨_, _, yields_armCbModify _ h _ s, s.allChecks_read t⟩
  case set b => exact ⟨_, _, yields_armCbModify _ h _ s, s.allChecks_read t⟩
  case rl =>
    exact ⟨_, _, yields_armCbRotateCarry _ h _ s, State.allChecks_append (s.allChecks_read t)
      (State.allChecks_cons (s.isCheck_flag _) s.allChecks_nil)⟩
  case rr =>
    exact ⟨_, _, yields_armCbRotateCarry _ h _ s, State.allChecks_append (s.allChecks_read t)
      (State.allChecks_cons (s.isCheck_flag _) s.allChecks_nil)⟩
  all_goals exact ⟨_, _, yields_armCbRotate _ h _ s, s.allChecks_read t⟩

/-- Every arm of an admitted value makes only the state's own checks, and gives a result when they pass. -/
theorem yields_arm {o : Op} (ha : o.admitted = true) (s : State) :
    ∃ cs r, Yields (arm o s) cs r ∧ s.AllChecks cs := by
  have one : ∀ {c}, s.IsCheck c → s.AllChecks [c] := fun h => State.allChecks_cons h s.allChecks_nil
  have reg := s.isCheck_reg
  have flag := s.isCheck_flag
  cases o with
  | ld8 dst src => exact yields_armLd8 ha s
  | ld16 w =>
    cases w
    case imm k => exact ⟨_, _, yields_armLd16Imm k s, s.allChecks_imm16⟩
    case nnSP =>
      exact ⟨_, _, yields_armLd16NnSp s, State.allChecks_append s.allChecks_imm16
        (State.allChecks_cons (s.isCheck_mem _ _) (one (s.isCheck_mem _ _)))⟩
    case spHL => exact ⟨_, _, yields_armLd16SpHl s, s.allChecks_pair _⟩
    case hlSPe => exact ⟨_, _, yields_armLd16HlSpE s, s.allChecks_imm8⟩
  | push k => exact ⟨_, _, yields_armPush k s, State.allChecks_append (s.allChecks_stk k) s.allChecks_push⟩
  | pop k => exact ⟨_, _, yields_armPop k s, s.allChecks_pop⟩
  | alu op src =>
    refine ⟨_, _, yields_armAlu op ha s, State.allChecks_append (s.allChecks_read src)
      (State.allChecks_append (one (reg _)) ?_)⟩
    split
    · exact one (flag _)
    · exact s.allChecks_nil
  | inc8 t => exact ⟨_, _, yields_armInc8 ha s, s.allChecks_read t⟩
  | dec8 t => exact ⟨_, _, yields_armDec8 ha s, s.allChecks_read t⟩
  | daa =>
    exact ⟨_, _, yields_armDaa s, State.allChecks_cons (reg _) (State.allChecks_cons (flag _)
      (State.allChecks_cons (flag _) (one (flag _))))⟩
  | cpl => exact ⟨_, _, yields_armCpl s, one (reg _)⟩
  | scf => exact ⟨_, _, Yields.ok _, s.allChecks_nil⟩
  | ccf => exact ⟨_, _, yields_armCcf s, one (flag _)⟩
  | rlca => exact ⟨_, _, yields_armRlca s, one (reg _)⟩
  | rrca => exact ⟨_, _, yields_armRrca s, one (reg _)⟩
  | rla => exact ⟨_, _, yields_armRla s, State.allChecks_cons (reg _) (one (flag _))⟩
  | rra => exact ⟨_, _, yields_armRra s, State.allChecks_cons (reg _) (one (flag _))⟩
  | inc16 k => exact ⟨_, _, yields_armInc16 k s, s.allChecks_pair k⟩
  | dec16 k => exact ⟨_, _, yields_armDec16 k s, s.allChecks_pair k⟩
  | add16 k => exact ⟨_, _, yields_armAdd16 k s, State.allChecks_append (s.allChecks_pair _) (s.allChecks_pair k)⟩
  | addSp => exact ⟨_, _, yields_armAddSp s, s.allChecks_imm8⟩
  | jp cc f =>
    cases f
    case imm16 => exact ⟨_, _, yields_armJpImm cc s, State.allChecks_append s.allChecks_imm16 (s.allChecks_cond cc)⟩
    case rel8 => exact ⟨_, _, yields_armJr cc s, State.allChecks_append s.allChecks_imm8 (s.allChecks_cond cc)⟩
    case hl => exact yields_armJpHl_any cc s
  | call cc =>
    refine ⟨_, _, yields_armCall cc s, State.allChecks_append s.allChecks_imm16
      (State.allChecks_append (s.allChecks_cond cc) ?_)⟩
    split
    · exact s.allChecks_push
    · exact s.allChecks_nil
  | ret cc =>
    refine ⟨_, _, yields_armRet cc s, State.allChecks_append (s.allChecks_cond cc) ?_⟩
    split
    · exact s.allChecks_pop
    · exact s.allChecks_nil
  | rst t => exact ⟨_, _, yields_armRst t s, s.allChecks_push⟩
  | nop => exact ⟨_, _, Yields.ok _, s.allChecks_nil⟩
  | halt => exact ⟨_, _, Yields.ok _, s.allChecks_nil⟩
  | stop => exact ⟨_, _, Yields.ok _, s.allChecks_nil⟩
  | di => exact ⟨_, _, Yields.ok _, s.allChecks_nil⟩
  | ei => exact ⟨_, _, Yields.ok _, s.allChecks_nil⟩
  | cb op t => exact yields_armCb ha s

/-- The faults a check can raise: a register or flag that holds no value, or an address with no cell. -/
theorem State.fault_of_check {s : State} {c : Option Fault} {f : Fault} (h : s.IsCheck c) (hf : c = some f) :
    (∃ n, f = .undef n ∧ s.holds n = false) ∨ ∃ k a, f = .mem a k ∧ s.mapped a = false := by
  rcases h with ⟨r, rfl⟩ | ⟨g, rfl⟩ | ⟨k, a, rfl⟩
  · unfold State.regCheck at hf
    split at hf <;> cases hf
    exact .inl ⟨_, rfl, by simp_all⟩
  · unfold State.flagCheck at hf
    split at hf <;> cases hf
    exact .inl ⟨_, rfl, by simp_all⟩
  · unfold State.memCheck at hf
    split at hf <;> cases hf
    exact .inr ⟨_, _, rfl, by simp_all⟩

theorem mem_of_firstFault {cs : List (Option Fault)} {f : Fault} (h : firstFault cs = some f) : some f ∈ cs := by
  induction cs with
  | nil => cases h
  | cons c cs ih =>
    cases c with
    | none => exact List.mem_cons_of_mem _ (ih h)
    | some g =>
      cases h
      exact List.mem_cons_self

/-- What execute can raise while running: the operand fault of an unadmitted value, or a failed check. -/
theorem execute_eq_fault {o : Op} {s : State} {f : Fault} (h : execute o s = .fault f) :
    (f = .operand o ∧ o.admitted = false) ∨ (∃ n, f = .undef n ∧ s.holds n = false) ∨
      ∃ k a, f = .mem a k ∧ s.mapped a = false := by
  cases hr : s.running
  · rw [execute_of_not_running o hr] at h
    cases h
  · cases ha : o.admitted
    · simp only [execute, hr, ha, if_true, Bool.false_eq_true, if_false] at h
      cases h
      exact .inl ⟨rfl, rfl⟩
    · rw [execute_of_running hr ha] at h
      obtain ⟨cs, r, hy, hc⟩ := yields_arm ha s
      rcases hf : firstFault cs with _ | g
      · rw [hy.1 hf] at h
        cases h
      · rw [hy.2 g hf] at h
        cases h
        exact .inr (State.fault_of_check (hc _ (mem_of_firstFault hf)) rfl)

/-- Execute goes on when every register and flag holds a value and every address has a cell. -/
theorem execute_completes {o : Op} (ha : o.admitted = true) {s : State} (hn : ∀ n, s.holds n = true)
    (hm : ∀ a, s.mapped a = true) : ∃ t, execute o s = .next t := by
  cases h : execute o s with
  | next t => exact ⟨t, rfl⟩
  | fault f =>
    rcases execute_eq_fault h with ⟨_, h⟩ | ⟨n, _, h⟩ | ⟨_, a, _, h⟩
    · rw [ha] at h
      cases h
    · rw [hn n] at h
      cases h
    · rw [hm a] at h
      cases h
  | refused r => exact absurd h (execute_ne_refused o s r)

end Sys2Proof.Machine
end

