-- ==== Sys2Proof/Laws/Noninterference.lean ====
section
/-! SUPPORT. What no arm looks at, said once: if two states agree on everything an arm reads, in a relation that every primitive
update keeps, then the arm, execute and exec answer alike in that relation. -/

namespace Sys2Proof.Machine

/-- A relation of states that agree on what arms read, kept by every primitive update made to both. -/
structure Alike (R : State → State → Prop) : Prop where
  reg : ∀ {s s' : State}, R s s' → ∀ r, s.reg r = s'.reg r
  flags : ∀ {s s' : State}, R s s' → s.f = s'.f
  noValue : ∀ {s s' : State}, R s s' → s.noValue = s'.noValue
  sp : ∀ {s s' : State}, R s s' → s.sp = s'.sp
  pc : ∀ {s s' : State}, R s s' → s.pc = s'.pc
  mem : ∀ {s s' : State}, R s s' → s.mem = s'.mem
  memSize : ∀ {s s' : State}, R s s' → s.cfg.memSize = s'.cfg.memSize
  stopLen : ∀ {s s' : State}, R s s' → s.cfg.stopLen = s'.cfg.stopLen
  prefixTable : ∀ {s s' : State}, R s s' → s.cfg.prefixTable = s'.cfg.prefixTable
  running : ∀ {s s' : State}, R s s' → s.running = s'.running
  setReg : ∀ {s s' : State}, R s s' → ∀ r v, R (s.setReg r v) (s'.setReg r v)
  setFlags : ∀ {s s' : State}, R s s' → ∀ w, R (s.setFlags w) (s'.setFlags w)
  setSp : ∀ {s s' : State}, R s s' → ∀ w, R { s with sp := w } { s' with sp := w }
  setByte : ∀ {s s' : State}, R s s' → ∀ a v, R (s.setByte a v) (s'.setByte a v)
  setIme : ∀ {s s' : State}, R s s' → ∀ b, R { s with ime := b } { s' with ime := b }
  setHalted : ∀ {s s' : State}, R s s' → R { s with halted := true } { s' with halted := true }
  setStopped : ∀ {s s' : State}, R s s' → R { s with stopped := true } { s' with stopped := true }
  commit : ∀ {s s' : State}, R s s' → ∀ p x, R (s.commit p x) (s'.commit p x)

/-- Two computations that raise the same fault, or give related values. -/
def AlikeE {α : Type} (Q : α → α → Prop) (x x' : Except Fault α) : Prop :=
  match x, x' with
  | .ok a, .ok a' => Q a a'
  | .error f, .error f' => f = f'
  | .ok _, .error _ | .error _, .ok _ => False

theorem AlikeE.bind {α β : Type} {Q : α → α → Prop} {Q' : β → β → Prop} {x x' : Except Fault α}
    {k k' : α → Except Fault β} (hx : AlikeE Q x x') (hk : ∀ a a', Q a a' → AlikeE Q' (k a) (k' a')) :
    AlikeE Q' (x >>= k) (x' >>= k') := by
  cases x <;> cases x' <;> first | exact hk _ _ hx | exact hx | exact hx.elim

theorem AlikeE.of_eq {α : Type} {x x' : Except Fault α} (h : x = x') : AlikeE Eq x x' := by
  subst h
  cases x <;> rfl

/-- Related results. -/
def AlikeR (R : State → State → Prop) (r r' : Result) : Prop :=
  R r.state r'.state ∧ r.nextPc = r'.nextPc ∧ r.extra = r'.extra

variable {R : State → State → Prop} {s s' : State}

namespace Alike

/-! ## Reads -/

theorem holds (hR : Alike R) (h : R s s') (n : RegName) : s.holds n = s'.holds n := by
  rw [State.holds, State.holds, hR.noValue h]

theorem readReg (hR : Alike R) (h : R s s') (r : Reg8) : readReg r s = Machine.readReg r s' := by
  rw [Machine.readReg, Machine.readReg, hR.holds h, hR.reg h]

theorem readFlag (hR : Alike R) (h : R s s') (g : FlagName) : readFlag g s = Machine.readFlag g s' := by
  have e : s.flag g = s'.flag g := by cases g <;> simp only [State.flag, hR.flags h]
  rw [Machine.readFlag, Machine.readFlag, hR.holds h, e]

theorem readHalves (hR : Alike R) (h : R s s') (x y : Reg8) : readHalves x y s = Machine.readHalves x y s' := by
  rw [Machine.readHalves, Machine.readHalves, hR.readReg h, hR.readReg h]

theorem pair (hR : Alike R) (h : R s s') (k : Reg16) : s.pair k = s'.pair k := by
  cases k
  case sp => exact hR.sp h
  case bc => exact congrArg₂ join (hR.reg h .b) (hR.reg h .c)
  case de => exact congrArg₂ join (hR.reg h .d) (hR.reg h .e)
  case hl => exact congrArg₂ join (hR.reg h .h) (hR.reg h .l)

theorem readPair (hR : Alike R) (h : R s s') (k : Reg16) : readPair k s = Machine.readPair k s' := by
  cases k
  case sp => exact congrArg Except.ok (hR.sp h)
  all_goals exact hR.readHalves h _ _

theorem readStk (hR : Alike R) (h : R s s') (k : StkReg) : readStk k s = Machine.readStk k s' := by
  cases k
  case bc => exact hR.readPair h .bc
  case de => exact hR.readPair h .de
  case hl => exact hR.readPair h .hl
  case af => simp only [Machine.readStk, hR.readReg h, hR.readFlag h]

theorem mapped (hR : Alike R) (h : R s s') (a : Word) : s.mapped a = s'.mapped a := by
  rw [State.mapped, State.mapped, hR.memSize h]

theorem byteAt (hR : Alike R) (h : R s s') (a : Word) : s.byteAt a = s'.byteAt a := by
  rw [State.byteAt, State.byteAt, hR.mem h]

theorem memRead (hR : Alike R) (h : R s s') (k : AccessKind) (a : Word) : memRead k a s = Machine.memRead k a s' := by
  rw [Machine.memRead, Machine.memRead, hR.mapped h, hR.byteAt h]

theorem memRead16 (hR : Alike R) (h : R s s') (k : AccessKind) (a : Word) :
    memRead16 k a s = Machine.memRead16 k a s' := by
  rw [Machine.memRead16, Machine.memRead16, hR.memRead h, hR.memRead h]

theorem fetchImm8 (hR : Alike R) (h : R s s') : fetchImm8 s = Machine.fetchImm8 s' := by
  rw [Machine.fetchImm8, Machine.fetchImm8, hR.pc h, hR.memRead h]

theorem fetchImm16 (hR : Alike R) (h : R s s') : fetchImm16 s = Machine.fetchImm16 s' := by
  rw [Machine.fetchImm16, Machine.fetchImm16, hR.pc h, hR.memRead16 h]

theorem seqPc (hR : Alike R) (h : R s s') (i : Op) : s.seqPc i = s'.seqPc i := by
  rw [State.seqPc, State.seqPc, hR.pc h, hR.stopLen h]

theorem locPlace (hR : Alike R) (h : R s s') (t : Loc8) : locPlace t s = Machine.locPlace t s' := by
  cases t <;> simp only [Machine.locPlace, hR.readPair h, hR.fetchImm16 h, hR.fetchImm8 h, hR.readReg h]

theorem readPlace (hR : Alike R) (h : R s s') (p : Place) : readPlace p s = Machine.readPlace p s' := by
  cases p <;> simp only [Machine.readPlace, hR.readReg h, hR.memRead h, hR.fetchImm8 h]

/-! ## Updates -/

theorem setPair (hR : Alike R) (h : R s s') (k : Reg16) (w : Word) : R (s.setPair k w) (s'.setPair k w) := by
  cases k
  case sp => exact hR.setSp h w
  all_goals
    simp only [State.setPair]
    exact hR.setReg (hR.setReg h _ _) _ _

theorem setStk (hR : Alike R) (h : R s s') (k : StkReg) (w : Word) : R (s.setStk k w) (s'.setStk k w) := by
  cases k
  case bc => exact hR.setPair h .bc w
  case de => exact hR.setPair h .de w
  case hl => exact hR.setPair h .hl w
  case af => exact hR.setFlags (hR.setReg h _ _) _

theorem locAfter (hR : Alike R) (h : R s s') (t : Loc8) : R (locAfter t s) (Machine.locAfter t s') := by
  cases t <;> simp only [Machine.locAfter, hR.pair h] <;> first | exact h | exact hR.setPair h _ _

theorem memWrite (hR : Alike R) (h : R s s') (a : Word) (v : Byte) :
    AlikeE R (memWrite a v s) (Machine.memWrite a v s') := by
  rw [Machine.memWrite, Machine.memWrite, hR.mapped h]
  split
  · exact hR.setByte h a v
  · rfl

theorem memWrite16 (hR : Alike R) (h : R s s') (a v : Word) :
    AlikeE R (memWrite16 a v s) (Machine.memWrite16 a v s') :=
  (hR.memWrite h _ _).bind fun _ _ h => hR.memWrite h _ _

theorem push8 (hR : Alike R) (h : R s s') (b : Byte) : AlikeE R (push8 b s) (Machine.push8 b s') := by
  rw [Machine.push8, Machine.push8, hR.sp h]
  exact hR.memWrite (hR.setSp h _) _ _

theorem push16 (hR : Alike R) (h : R s s') (w : Word) : AlikeE R (push16 w s) (Machine.push16 w s') :=
  (hR.push8 h _).bind fun _ _ h => hR.push8 h _

/-- Related pairs of a value and a state: the same value, and related states. -/
def Val {α : Type} (R : State → State → Prop) (p p' : α × State) : Prop := p.1 = p'.1 ∧ R p.2 p'.2

theorem pop8 (hR : Alike R) (h : R s s') : AlikeE (Val R) (pop8 s) (Machine.pop8 s') := by
  rw [Machine.pop8, Machine.pop8, hR.sp h, hR.memRead h]
  refine (AlikeE.of_eq rfl).bind ?_
  rintro b _ rfl
  exact ⟨rfl, hR.setSp h _⟩

theorem pop16 (hR : Alike R) (h : R s s') : AlikeE (Val R) (pop16 s) (Machine.pop16 s') := by
  refine (hR.pop8 h).bind ?_
  rintro ⟨lo, s1⟩ ⟨_, s1'⟩ ⟨rfl, h1⟩
  refine (hR.pop8 h1).bind ?_
  rintro ⟨hi, s2⟩ ⟨_, s2'⟩ ⟨rfl, h2⟩
  exact ⟨rfl, h2⟩

theorem readLoc (hR : Alike R) (h : R s s') (t : Loc8) : AlikeE (Val R) (readLoc t s) (Machine.readLoc t s') := by
  rw [Machine.readLoc, Machine.readLoc, hR.locPlace h]
  refine (AlikeE.of_eq rfl).bind ?_
  rintro p _ rfl
  rw [hR.readPlace h]
  refine (AlikeE.of_eq rfl).bind ?_
  rintro v _ rfl
  exact ⟨rfl, hR.locAfter h t⟩

theorem writeLoc (hR : Alike R) (h : R s s') (i : Op) (t : Loc8) (v : Byte) :
    AlikeE R (writeLoc i t v s) (Machine.writeLoc i t v s') := by
  rw [Machine.writeLoc, Machine.writeLoc, hR.locPlace h]
  refine (AlikeE.of_eq rfl).bind ?_
  rintro p _ rfl
  cases p
  case reg r => exact hR.setReg h r v
  case mem a => exact (hR.memWrite h a v).bind fun _ _ h => hR.locAfter h t
  case immediate => rfl

theorem evalCond (hR : Alike R) (h : R s s') (cc : Cond) : AlikeE (Val R) (evalCond cc s) (Machine.evalCond cc s') := by
  cases cc <;> simp only [Machine.evalCond, hR.readFlag h]
  case always => exact ⟨rfl, h⟩
  case alwaysIe => exact ⟨rfl, hR.setIme h _⟩
  all_goals
    refine (AlikeE.of_eq rfl).bind ?_
    rintro b _ rfl
    exact ⟨rfl, h⟩

theorem storeAluResult (hR : Alike R) (h : R s s') (op : AluOp) (v : Byte) :
    R (storeAluResult op v s) (Machine.storeAluResult op v s') := by
  cases op
  case cp => exact h
  all_goals
    simp only [Machine.storeAluResult]
    exact hR.setReg h _ _

/-! ## The arms -/

theorem armLd8 (hR : Alike R) (h : R s s') (dst src : Loc8) :
    AlikeE (AlikeR R) (armLd8 dst src s) (Machine.armLd8 dst src s') := by
  have hf : formStoreAddress dst src s = formStoreAddress dst src s' := by
    cases src <;> simp only [formStoreAddress, hR.locPlace h]
  rw [Machine.armLd8, Machine.armLd8, hf]
  refine (AlikeE.of_eq rfl).bind fun _ _ _ => (hR.readLoc h src).bind ?_
  rintro ⟨v, s1⟩ ⟨_, s1'⟩ ⟨rfl, h1⟩
  exact (hR.writeLoc h1 _ _ _).bind fun _ _ h2 => ⟨h2, hR.seqPc h _, rfl⟩

theorem armLd16 (hR : Alike R) (h : R s s') (w : WordLoad) :
    AlikeE (AlikeR R) (armLd16 w s) (Machine.armLd16 w s') := by
  cases w <;> simp only [Machine.armLd16]
  case imm k =>
    rw [armLd16Imm, armLd16Imm, hR.fetchImm16 h]
    refine (AlikeE.of_eq rfl).bind ?_
    rintro nn _ rfl
    exact ⟨hR.setPair h _ _, hR.seqPc h _, rfl⟩
  case nnSP =>
    rw [armLd16NnSp, armLd16NnSp, hR.fetchImm16 h, hR.sp h]
    refine (AlikeE.of_eq rfl).bind ?_
    rintro nn _ rfl
    exact (hR.memWrite16 h _ _).bind fun _ _ h2 => ⟨h2, hR.seqPc h _, rfl⟩
  case spHL =>
    rw [armLd16SpHl, armLd16SpHl, hR.readPair h]
    refine (AlikeE.of_eq rfl).bind ?_
    rintro nn _ rfl
    exact ⟨hR.setPair h .sp _, hR.seqPc h _, rfl⟩
  case hlSPe =>
    rw [armLd16HlSpE, armLd16HlSpE, hR.fetchImm8 h, hR.sp h]
    refine (AlikeE.of_eq rfl).bind ?_
    rintro u _ rfl
    exact ⟨hR.setFlags (hR.setPair h _ _) _, hR.seqPc h _, rfl⟩

theorem armAlu (hR : Alike R) (h : R s s') (op : AluOp) (src : Loc8) :
    AlikeE (AlikeR R) (armAlu op src s) (Machine.armAlu op src s') := by
  refine (hR.readLoc h src).bind ?_
  rintro ⟨v, s1⟩ ⟨_, s1'⟩ ⟨rfl, h1⟩
  have hc : aluCarry op s1 = aluCarry op s1' := by simp only [aluCarry, hR.readFlag h1]
  simp only [hR.readReg h1, hc]
  refine (AlikeE.of_eq rfl).bind ?_
  rintro a _ rfl
  refine (AlikeE.of_eq rfl).bind ?_
  rintro c _ rfl
  exact ⟨hR.setFlags (hR.storeAluResult h1 _ _) _, hR.seqPc h _, rfl⟩

/-- The shape of the read-modify-write arms. -/
theorem readWrite (hR : Alike R) (h : R s s') (i j : Op) (t : Loc8) (out : Byte → Byte) (fin : Byte → State → State)
    (hfin : ∀ {v u u'}, R u u' → R (fin v u) (fin v u')) :
    AlikeE (AlikeR R)
      (do
        let p ← Machine.readLoc t s
        let s2 ← Machine.writeLoc i t (out p.1) p.2
        pure ⟨fin p.1 s2, s.seqPc j, 0⟩)
      (do
        let p ← Machine.readLoc t s'
        let s2 ← Machine.writeLoc i t (out p.1) p.2
        pure ⟨fin p.1 s2, s'.seqPc j, 0⟩) := by
  refine (hR.readLoc h t).bind ?_
  rintro ⟨v, s1⟩ ⟨_, s1'⟩ ⟨rfl, h1⟩
  exact (hR.writeLoc h1 _ _ _).bind fun _ _ h2 => ⟨hfin h2, hR.seqPc h _, rfl⟩

theorem armCb (hR : Alike R) (h : R s s') (op : CbOp) (t : Loc8) :
    AlikeE (AlikeR R) (armCb op t s) (Machine.armCb op t s') := by
  have rot : ∀ i out, AlikeE (AlikeR R) (armCbRotate i t out s) (armCbRotate i t out s') := fun i out =>
    hR.readWrite h i i t (fun v => (cbRotate (out v)).result) (fun v u => u.setFlags (cbRotate (out v)).flags)
      fun h => hR.setFlags h _
  have carry : ∀ i out, AlikeE (AlikeR R) (armCbRotateCarry i t out s) (armCbRotateCarry i t out s') := by
    intro i out
    refine (hR.readLoc h t).bind ?_
    rintro ⟨v, s1⟩ ⟨_, s1'⟩ ⟨rfl, h1⟩
    simp only [hR.readFlag h1]
    refine (AlikeE.of_eq rfl).bind ?_
    rintro c _ rfl
    exact (hR.writeLoc h1 _ _ _).bind fun _ _ h2 => ⟨hR.setFlags h2 _, hR.seqPc h _, rfl⟩
  have modify : ∀ i f, AlikeE (AlikeR R) (armCbModify i t f s) (armCbModify i t f s') := fun i f =>
    hR.readWrite h i i t f (fun _ u => u) fun h => h
  cases op
  case rl => exact carry _ _
  case rr => exact carry _ _
  case res => exact modify _ _
  case set => exact modify _ _
  case bit b =>
    refine (hR.readLoc h t).bind ?_
    rintro ⟨v, s1⟩ ⟨_, s1'⟩ ⟨rfl, h1⟩
    exact ⟨hR.setFlags h1 _, hR.seqPc h _, rfl⟩
  all_goals exact rot _ _

theorem armJp (hR : Alike R) (h : R s s') (cc : Cond) (f : JpForm) :
    AlikeE (AlikeR R) (armJp cc f s) (Machine.armJp cc f s') := by
  cases f <;> simp only [Machine.armJp]
  case imm16 =>
    rw [armJpImm, armJpImm, hR.fetchImm16 h]
    refine (AlikeE.of_eq rfl).bind ?_
    rintro nn _ rfl
    refine (hR.evalCond h cc).bind ?_
    rintro ⟨b, s1⟩ ⟨_, s1'⟩ ⟨rfl, h1⟩
    cases b
    · exact ⟨h1, hR.seqPc h _, rfl⟩
    · exact ⟨h1, rfl, rfl⟩
  case hl =>
    refine (hR.evalCond h cc).bind ?_
    rintro ⟨b, s1⟩ ⟨_, s1'⟩ ⟨rfl, h1⟩
    cases b
    · exact ⟨h1, hR.seqPc h _, rfl⟩
    · simp only [if_true, hR.readPair h1]
      refine (AlikeE.of_eq rfl).bind ?_
      rintro w _ rfl
      exact ⟨h1, rfl, rfl⟩
  case rel8 =>
    rw [armJr, armJr, hR.fetchImm8 h]
    refine (AlikeE.of_eq rfl).bind ?_
    rintro u _ rfl
    refine (hR.evalCond h cc).bind ?_
    rintro ⟨b, s1⟩ ⟨_, s1'⟩ ⟨rfl, h1⟩
    cases b
    · exact ⟨h1, hR.seqPc h _, rfl⟩
    · exact ⟨h1, congrArg (· + sext16 u) (hR.seqPc h _), rfl⟩

theorem armCall (hR : Alike R) (h : R s s') (cc : Cond) :
    AlikeE (AlikeR R) (armCall cc s) (Machine.armCall cc s') := by
  rw [Machine.armCall, Machine.armCall, hR.fetchImm16 h, hR.seqPc h]
  refine (AlikeE.of_eq rfl).bind ?_
  rintro nn _ rfl
  refine (hR.evalCond h cc).bind ?_
  rintro ⟨b, s1⟩ ⟨_, s1'⟩ ⟨rfl, h1⟩
  cases b
  · exact ⟨h1, rfl, rfl⟩
  · exact (hR.push16 h1 _).bind fun _ _ h2 => ⟨h2, rfl, rfl⟩

theorem armRet (hR : Alike R) (h : R s s') (cc : Cond) :
    AlikeE (AlikeR R) (armRet cc s) (Machine.armRet cc s') := by
  refine (hR.evalCond h cc).bind ?_
  rintro ⟨b, s1⟩ ⟨_, s1'⟩ ⟨rfl, h1⟩
  cases b
  · exact ⟨h1, hR.seqPc h _, rfl⟩
  · refine (hR.pop16 h1).bind ?_
    rintro ⟨v, s2⟩ ⟨_, s2'⟩ ⟨rfl, h2⟩
    exact ⟨h2, rfl, rfl⟩

/-- Every arm answers alike. -/
theorem arm (hR : Alike R) (h : R s s') (o : Op) : AlikeE (AlikeR R) (arm o s) (Machine.arm o s') := by
  have pure1 : ∀ {u u' : State} (i : Op), R u u' →
      AlikeE (AlikeR R) (.ok ⟨u, s.seqPc i, 0⟩) (.ok ⟨u', s'.seqPc i, 0⟩) := fun i hu => ⟨hu, hR.seqPc h i, rfl⟩
  cases o with
  | ld8 dst src => exact hR.armLd8 h dst src
  | ld16 w => exact hR.armLd16 h w
  | push k =>
    simp only [Machine.arm, armPush, hR.readStk h]
    refine (AlikeE.of_eq rfl).bind ?_
    rintro v _ rfl
    exact (hR.push16 h _).bind fun _ _ h2 => ⟨h2, hR.seqPc h _, rfl⟩
  | pop k =>
    refine (hR.pop16 h).bind ?_
    rintro ⟨v, s2⟩ ⟨_, s2'⟩ ⟨rfl, h2⟩
    exact pure1 _ (hR.setStk h2 _ _)
  | alu op src => exact hR.armAlu h op src
  | inc8 t =>
    exact hR.readWrite h _ _ t (fun v => (inc8Result v).result) (fun v u => u.setFlags (inc8Result v).flags)
      fun h => hR.setFlags h _
  | dec8 t =>
    exact hR.readWrite h _ _ t (fun v => (dec8Result v).result) (fun v u => u.setFlags (dec8Result v).flags)
      fun h => hR.setFlags h _
  | daa =>
    simp only [Machine.arm, armDaa, hR.readReg h, hR.readFlag h]
    refine (AlikeE.of_eq rfl).bind ?_
    rintro a _ rfl
    refine (AlikeE.of_eq rfl).bind ?_
    rintro c _ rfl
    refine (AlikeE.of_eq rfl).bind ?_
    rintro n _ rfl
    refine (AlikeE.of_eq rfl).bind ?_
    rintro k _ rfl
    exact pure1 _ (hR.setFlags (hR.setReg h _ _) _)
  | cpl =>
    simp only [Machine.arm, armCpl, hR.readReg h]
    refine (AlikeE.of_eq rfl).bind ?_
    rintro a _ rfl
    exact pure1 _ (hR.setFlags (hR.setReg h _ _) _)
  | scf => exact pure1 _ (hR.setFlags h _)
  | ccf =>
    simp only [Machine.arm, armCcf, hR.readFlag h]
    refine (AlikeE.of_eq rfl).bind ?_
    rintro c _ rfl
    exact pure1 _ (hR.setFlags h _)
  | rlca =>
    simp only [Machine.arm, armRlca, hR.readReg h]
    refine (AlikeE.of_eq rfl).bind ?_
    rintro a _ rfl
    exact pure1 _ (hR.setFlags (hR.setReg h _ _) _)
  | rrca =>
    simp only [Machine.arm, armRrca, hR.readReg h]
    refine (AlikeE.of_eq rfl).bind ?_
    rintro a _ rfl
    exact pure1 _ (hR.setFlags (hR.setReg h _ _) _)
  | rla =>
    simp only [Machine.arm, armRla, hR.readReg h, hR.readFlag h]
    refine (AlikeE.of_eq rfl).bind ?_
    rintro a _ rfl
    refine (AlikeE.of_eq rfl).bind ?_
    rintro c _ rfl
    exact pure1 _ (hR.setFlags (hR.setReg h _ _) _)
  | rra =>
    simp only [Machine.arm, armRra, hR.readReg h, hR.readFlag h]
    refine (AlikeE.of_eq rfl).bind ?_
    rintro a _ rfl
    refine (AlikeE.of_eq rfl).bind ?_
    rintro c _ rfl
    exact pure1 _ (hR.setFlags (hR.setReg h _ _) _)
  | inc16 k =>
    simp only [Machine.arm, armInc16, hR.readPair h]
    refine (AlikeE.of_eq rfl).bind ?_
    rintro v _ rfl
    exact pure1 _ (hR.setPair h _ _)
  | dec16 k =>
    simp only [Machine.arm, armDec16, hR.readPair h]
    refine (AlikeE.of_eq rfl).bind ?_
    rintro v _ rfl
    exact pure1 _ (hR.setPair h _ _)
  | add16 k =>
    simp only [Machine.arm, armAdd16, hR.readPair h]
    refine (AlikeE.of_eq rfl).bind ?_
    rintro v _ rfl
    refine (AlikeE.of_eq rfl).bind ?_
    rintro w _ rfl
    exact pure1 _ (hR.setFlags (hR.setPair h _ _) _)
  | addSp =>
    simp only [Machine.arm, armAddSp, hR.fetchImm8 h, hR.sp h]
    refine (AlikeE.of_eq rfl).bind ?_
    rintro u _ rfl
    exact pure1 _ (hR.setFlags (hR.setPair h .sp _) _)
  | jp cc f => exact hR.armJp h cc f
  | call cc => exact hR.armCall h cc
  | ret cc => exact hR.armRet h cc
  | rst t =>
    simp only [Machine.arm, armRst, hR.pc h]
    exact (hR.push16 h _).bind fun _ _ h2 => ⟨h2, rfl, rfl⟩
  | nop => exact pure1 _ h
  | halt => exact pure1 _ (hR.setHalted h)
  | stop => exact pure1 _ (hR.setStopped h)
  | di => exact pure1 _ (hR.setIme h _)
  | ei => exact pure1 _ (hR.setIme h _)
  | cb op t => exact hR.armCb h op t

/-! ## Execute and exec -/

/-- Outcomes that stop alike, or go on in related states. -/
def Outcomes (R : State → State → Prop) (o o' : Host.Outcome State Fault Refusal) : Prop :=
  match o, o' with
  | .next t, .next t' => R t t'
  | .fault f, .fault f' => f = f'
  | .refused r, .refused r' => r = r'
  | .next _, .fault _ | .next _, .refused _ | .fault _, .next _ | .fault _, .refused _ | .refused _, .next _
  | .refused _, .fault _ => False

theorem execute (hR : Alike R) (h : R s s') (o : Op) : Outcomes R (execute o s) (Machine.execute o s') := by
  simp only [Machine.execute, ← hR.running h, ← hR.pc h]
  split
  · split
    · have ha := hR.arm h o
      revert ha
      cases Machine.arm o s <;> cases Machine.arm o s' <;> intro ha
      · exact ha
      · exact ha.elim
      · exact ha.elim
      · obtain ⟨h1, h2, h3⟩ := ha
        simp only [finish, Outcomes, h2, h3]
        exact hR.commit h1 _ _
    · rfl
  · exact hR.commit h _ _

theorem fetchPrefixed (hR : Alike R) (h : R s s') : fetchPrefixed s = Machine.fetchPrefixed s' := by
  simp only [Machine.fetchPrefixed, hR.pc h, hR.memRead h, hR.prefixTable h]

theorem exec (hR : Alike R) (h : R s s') (i : Instr) : Outcomes R (exec i s) (Machine.exec i s') := by
  cases ho : i.op with
  | some o =>
    rw [exec_eq_execute ho, exec_eq_execute ho]
    exact hR.execute h o
  | none =>
    rcases op_eq_none ho with ⟨code, rfl⟩ | rfl
    · exact rfl
    · show Outcomes R (execPrefixCb s) (execPrefixCb s')
      rw [execPrefixCb, execPrefixCb, hR.fetchPrefixed h]
      split
      · exact hR.execute h _
      · rfl

theorem fetchInstr (hR : Alike R) (h : R s s') : fetchInstr s = Machine.fetchInstr s' := by
  simp only [Machine.fetchInstr, lookup, hR.pc h, hR.memRead h, hR.prefixTable h]

end Alike

end Sys2Proof.Machine
end

