-- ==== Sys2Proof/Laws/PerInstr.lean ====
section
/-! SUPPORT. Facts about every instruction's encoding, one lemma per row: its opcode bytes are no longer than its length, and no
instruction is longer than three bytes (30_encoding.md R61, R66). -/

namespace Sys2Proof.Laws.EncodedLength

/-- The opcode bytes of a row fit in its length, which is at most 3, whatever the length of STOP. -/
def Statement (i : Instr) : Prop :=
  ∀ o, i.op = some o → ∀ stop, (encode i).length ≤ o.len stop ∧ o.len stop ≤ 3

theorem illegal (code : Byte) : Statement (.illegal code) := nofun
theorem rlc (t : Loc8) : Statement (.rlc t) := fun _ h _ => by cases h; exact ⟨Nat.le_refl 2, Nat.le_succ 2⟩
theorem rrc (t : Loc8) : Statement (.rrc t) := fun _ h _ => by cases h; exact ⟨Nat.le_refl 2, Nat.le_succ 2⟩
theorem rl (t : Loc8) : Statement (.rl t) := fun _ h _ => by cases h; exact ⟨Nat.le_refl 2, Nat.le_succ 2⟩
theorem rr (t : Loc8) : Statement (.rr t) := fun _ h _ => by cases h; exact ⟨Nat.le_refl 2, Nat.le_succ 2⟩
theorem sla (t : Loc8) : Statement (.sla t) := fun _ h _ => by cases h; exact ⟨Nat.le_refl 2, Nat.le_succ 2⟩
theorem sra (t : Loc8) : Statement (.sra t) := fun _ h _ => by cases h; exact ⟨Nat.le_refl 2, Nat.le_succ 2⟩
theorem swap (t : Loc8) : Statement (.swap t) := fun _ h _ => by cases h; exact ⟨Nat.le_refl 2, Nat.le_succ 2⟩
theorem srl (t : Loc8) : Statement (.srl t) := fun _ h _ => by cases h; exact ⟨Nat.le_refl 2, Nat.le_succ 2⟩
theorem bit (b : Fin 8) (t : Loc8) : Statement (.bit b t) := fun _ h _ => by cases h; exact ⟨Nat.le_refl 2, Nat.le_succ 2⟩
theorem res (b : Fin 8) (t : Loc8) : Statement (.res b t) := fun _ h _ => by cases h; exact ⟨Nat.le_refl 2, Nat.le_succ 2⟩
theorem set (b : Fin 8) (t : Loc8) : Statement (.set b t) := fun _ h _ => by cases h; exact ⟨Nat.le_refl 2, Nat.le_succ 2⟩
theorem nop : Statement .nop := fun _ h _ => by cases h; exact ⟨Nat.le_of_ble_eq_true rfl, Nat.le_of_ble_eq_true rfl⟩
theorem ld_BC_nn : Statement .ld_BC_nn := fun _ h _ => by cases h; exact ⟨Nat.le_of_ble_eq_true rfl, Nat.le_of_ble_eq_true rfl⟩
theorem ld_atBC_A : Statement .ld_atBC_A := fun _ h _ => by cases h; exact ⟨Nat.le_of_ble_eq_true rfl, Nat.le_of_ble_eq_true rfl⟩
theorem inc_BC : Statement .inc_BC := fun _ h _ => by cases h; exact ⟨Nat.le_of_ble_eq_true rfl, Nat.le_of_ble_eq_true rfl⟩
theorem inc_B : Statement .inc_B := fun _ h _ => by cases h; exact ⟨Nat.le_of_ble_eq_true rfl, Nat.le_of_ble_eq_true rfl⟩
theorem dec_B : Statement .dec_B := fun _ h _ => by cases h; exact ⟨Nat.le_of_ble_eq_true rfl, Nat.le_of_ble_eq_true rfl⟩
theorem ld_B_n : Statement .ld_B_n := fun _ h _ => by cases h; exact ⟨Nat.le_of_ble_eq_true rfl, Nat.le_of_ble_eq_true rfl⟩
theorem rlca : Statement .rlca := fun _ h _ => by cases h; exact ⟨Nat.le_of_ble_eq_true rfl, Nat.le_of_ble_eq_true rfl⟩
theorem ld_atNN_SP : Statement .ld_atNN_SP := fun _ h _ => by cases h; exact ⟨Nat.le_of_ble_eq_true rfl, Nat.le_of_ble_eq_true rfl⟩
theorem add_HL_BC : Statement .add_HL_BC := fun _ h _ => by cases h; exact ⟨Nat.le_of_ble_eq_true rfl, Nat.le_of_ble_eq_true rfl⟩
theorem ld_A_atBC : Statement .ld_A_atBC := fun _ h _ => by cases h; exact ⟨Nat.le_of_ble_eq_true rfl, Nat.le_of_ble_eq_true rfl⟩
theorem dec_BC : Statement .dec_BC := fun _ h _ => by cases h; exact ⟨Nat.le_of_ble_eq_true rfl, Nat.le_of_ble_eq_true rfl⟩
theorem inc_C : Statement .inc_C := fun _ h _ => by cases h; exact ⟨Nat.le_of_ble_eq_true rfl, Nat.le_of_ble_eq_true rfl⟩
theorem dec_C : Statement .dec_C := fun _ h _ => by cases h; exact ⟨Nat.le_of_ble_eq_true rfl, Nat.le_of_ble_eq_true rfl⟩
theorem ld_C_n : Statement .ld_C_n := fun _ h _ => by cases h; exact ⟨Nat.le_of_ble_eq_true rfl, Nat.le_of_ble_eq_true rfl⟩
theorem rrca : Statement .rrca := fun _ h _ => by cases h; exact ⟨Nat.le_of_ble_eq_true rfl, Nat.le_of_ble_eq_true rfl⟩
theorem stop : Statement .stop := fun _ h stop => by cases h; cases stop <;> decide
theorem ld_DE_nn : Statement .ld_DE_nn := fun _ h _ => by cases h; exact ⟨Nat.le_of_ble_eq_true rfl, Nat.le_of_ble_eq_true rfl⟩
theorem ld_atDE_A : Statement .ld_atDE_A := fun _ h _ => by cases h; exact ⟨Nat.le_of_ble_eq_true rfl, Nat.le_of_ble_eq_true rfl⟩
theorem inc_DE : Statement .inc_DE := fun _ h _ => by cases h; exact ⟨Nat.le_of_ble_eq_true rfl, Nat.le_of_ble_eq_true rfl⟩
theorem inc_D : Statement .inc_D := fun _ h _ => by cases h; exact ⟨Nat.le_of_ble_eq_true rfl, Nat.le_of_ble_eq_true rfl⟩
theorem dec_D : Statement .dec_D := fun _ h _ => by cases h; exact ⟨Nat.le_of_ble_eq_true rfl, Nat.le_of_ble_eq_true rfl⟩
theorem ld_D_n : Statement .ld_D_n := fun _ h _ => by cases h; exact ⟨Nat.le_of_ble_eq_true rfl, Nat.le_of_ble_eq_true rfl⟩
theorem rla : Statement .rla := fun _ h _ => by cases h; exact ⟨Nat.le_of_ble_eq_true rfl, Nat.le_of_ble_eq_true rfl⟩
theorem jr_e : Statement .jr_e := fun _ h _ => by cases h; exact ⟨Nat.le_of_ble_eq_true rfl, Nat.le_of_ble_eq_true rfl⟩
theorem add_HL_DE : Statement .add_HL_DE := fun _ h _ => by cases h; exact ⟨Nat.le_of_ble_eq_true rfl, Nat.le_of_ble_eq_true rfl⟩
theorem ld_A_atDE : Statement .ld_A_atDE := fun _ h _ => by cases h; exact ⟨Nat.le_of_ble_eq_true rfl, Nat.le_of_ble_eq_true rfl⟩
theorem dec_DE : Statement .dec_DE := fun _ h _ => by cases h; exact ⟨Nat.le_of_ble_eq_true rfl, Nat.le_of_ble_eq_true rfl⟩
theorem inc_E : Statement .inc_E := fun _ h _ => by cases h; exact ⟨Nat.le_of_ble_eq_true rfl, Nat.le_of_ble_eq_true rfl⟩
theorem dec_E : Statement .dec_E := fun _ h _ => by cases h; exact ⟨Nat.le_of_ble_eq_true rfl, Nat.le_of_ble_eq_true rfl⟩
theorem ld_E_n : Statement .ld_E_n := fun _ h _ => by cases h; exact ⟨Nat.le_of_ble_eq_true rfl, Nat.le_of_ble_eq_true rfl⟩
theorem rra : Statement .rra := fun _ h _ => by cases h; exact ⟨Nat.le_of_ble_eq_true rfl, Nat.le_of_ble_eq_true rfl⟩
theorem jr_NZ_e : Statement .jr_NZ_e := fun _ h _ => by cases h; exact ⟨Nat.le_of_ble_eq_true rfl, Nat.le_of_ble_eq_true rfl⟩
theorem ld_HL_nn : Statement .ld_HL_nn := fun _ h _ => by cases h; exact ⟨Nat.le_of_ble_eq_true rfl, Nat.le_of_ble_eq_true rfl⟩
theorem ld_atHLi_A : Statement .ld_atHLi_A := fun _ h _ => by cases h; exact ⟨Nat.le_of_ble_eq_true rfl, Nat.le_of_ble_eq_true rfl⟩
theorem inc_HL : Statement .inc_HL := fun _ h _ => by cases h; exact ⟨Nat.le_of_ble_eq_true rfl, Nat.le_of_ble_eq_true rfl⟩
theorem inc_H : Statement .inc_H := fun _ h _ => by cases h; exact ⟨Nat.le_of_ble_eq_true rfl, Nat.le_of_ble_eq_true rfl⟩
theorem dec_H : Statement .dec_H := fun _ h _ => by cases h; exact ⟨Nat.le_of_ble_eq_true rfl, Nat.le_of_ble_eq_true rfl⟩
theorem ld_H_n : Statement .ld_H_n := fun _ h _ => by cases h; exact ⟨Nat.le_of_ble_eq_true rfl, Nat.le_of_ble_eq_true rfl⟩
theorem daa : Statement .daa := fun _ h _ => by cases h; exact ⟨Nat.le_of_ble_eq_true rfl, Nat.le_of_ble_eq_true rfl⟩
theorem jr_Z_e : Statement .jr_Z_e := fun _ h _ => by cases h; exact ⟨Nat.le_of_ble_eq_true rfl, Nat.le_of_ble_eq_true rfl⟩
theorem add_HL_HL : Statement .add_HL_HL := fun _ h _ => by cases h; exact ⟨Nat.le_of_ble_eq_true rfl, Nat.le_of_ble_eq_true rfl⟩
theorem ld_A_atHLi : Statement .ld_A_atHLi := fun _ h _ => by cases h; exact ⟨Nat.le_of_ble_eq_true rfl, Nat.le_of_ble_eq_true rfl⟩
theorem dec_HL : Statement .dec_HL := fun _ h _ => by cases h; exact ⟨Nat.le_of_ble_eq_true rfl, Nat.le_of_ble_eq_true rfl⟩
theorem inc_L : Statement .inc_L := fun _ h _ => by cases h; exact ⟨Nat.le_of_ble_eq_true rfl, Nat.le_of_ble_eq_true rfl⟩
theorem dec_L : Statement .dec_L := fun _ h _ => by cases h; exact ⟨Nat.le_of_ble_eq_true rfl, Nat.le_of_ble_eq_true rfl⟩
theorem ld_L_n : Statement .ld_L_n := fun _ h _ => by cases h; exact ⟨Nat.le_of_ble_eq_true rfl, Nat.le_of_ble_eq_true rfl⟩
theorem cpl : Statement .cpl := fun _ h _ => by cases h; exact ⟨Nat.le_of_ble_eq_true rfl, Nat.le_of_ble_eq_true rfl⟩
theorem jr_NC_e : Statement .jr_NC_e := fun _ h _ => by cases h; exact ⟨Nat.le_of_ble_eq_true rfl, Nat.le_of_ble_eq_true rfl⟩
theorem ld_SP_nn : Statement .ld_SP_nn := fun _ h _ => by cases h; exact ⟨Nat.le_of_ble_eq_true rfl, Nat.le_of_ble_eq_true rfl⟩
theorem ld_atHLd_A : Statement .ld_atHLd_A := fun _ h _ => by cases h; exact ⟨Nat.le_of_ble_eq_true rfl, Nat.le_of_ble_eq_true rfl⟩
theorem inc_SP : Statement .inc_SP := fun _ h _ => by cases h; exact ⟨Nat.le_of_ble_eq_true rfl, Nat.le_of_ble_eq_true rfl⟩
theorem inc_atHL : Statement .inc_atHL := fun _ h _ => by cases h; exact ⟨Nat.le_of_ble_eq_true rfl, Nat.le_of_ble_eq_true rfl⟩
theorem dec_atHL : Statement .dec_atHL := fun _ h _ => by cases h; exact ⟨Nat.le_of_ble_eq_true rfl, Nat.le_of_ble_eq_true rfl⟩
theorem ld_atHL_n : Statement .ld_atHL_n := fun _ h _ => by cases h; exact ⟨Nat.le_of_ble_eq_true rfl, Nat.le_of_ble_eq_true rfl⟩
theorem scf : Statement .scf := fun _ h _ => by cases h; exact ⟨Nat.le_of_ble_eq_true rfl, Nat.le_of_ble_eq_true rfl⟩
theorem jr_C_e : Statement .jr_C_e := fun _ h _ => by cases h; exact ⟨Nat.le_of_ble_eq_true rfl, Nat.le_of_ble_eq_true rfl⟩
theorem add_HL_SP : Statement .add_HL_SP := fun _ h _ => by cases h; exact ⟨Nat.le_of_ble_eq_true rfl, Nat.le_of_ble_eq_true rfl⟩
theorem ld_A_atHLd : Statement .ld_A_atHLd := fun _ h _ => by cases h; exact ⟨Nat.le_of_ble_eq_true rfl, Nat.le_of_ble_eq_true rfl⟩
theorem dec_SP : Statement .dec_SP := fun _ h _ => by cases h; exact ⟨Nat.le_of_ble_eq_true rfl, Nat.le_of_ble_eq_true rfl⟩
theorem inc_A : Statement .inc_A := fun _ h _ => by cases h; exact ⟨Nat.le_of_ble_eq_true rfl, Nat.le_of_ble_eq_true rfl⟩
theorem dec_A : Statement .dec_A := fun _ h _ => by cases h; exact ⟨Nat.le_of_ble_eq_true rfl, Nat.le_of_ble_eq_true rfl⟩
theorem ld_A_n : Statement .ld_A_n := fun _ h _ => by cases h; exact ⟨Nat.le_of_ble_eq_true rfl, Nat.le_of_ble_eq_true rfl⟩
theorem ccf : Statement .ccf := fun _ h _ => by cases h; exact ⟨Nat.le_of_ble_eq_true rfl, Nat.le_of_ble_eq_true rfl⟩
theorem ld_B_B : Statement .ld_B_B := fun _ h _ => by cases h; exact ⟨Nat.le_of_ble_eq_true rfl, Nat.le_of_ble_eq_true rfl⟩
theorem ld_B_C : Statement .ld_B_C := fun _ h _ => by cases h; exact ⟨Nat.le_of_ble_eq_true rfl, Nat.le_of_ble_eq_true rfl⟩
theorem ld_B_D : Statement .ld_B_D := fun _ h _ => by cases h; exact ⟨Nat.le_of_ble_eq_true rfl, Nat.le_of_ble_eq_true rfl⟩
theorem ld_B_E : Statement .ld_B_E := fun _ h _ => by cases h; exact ⟨Nat.le_of_ble_eq_true rfl, Nat.le_of_ble_eq_true rfl⟩
theorem ld_B_H : Statement .ld_B_H := fun _ h _ => by cases h; exact ⟨Nat.le_of_ble_eq_true rfl, Nat.le_of_ble_eq_true rfl⟩
theorem ld_B_L : Statement .ld_B_L := fun _ h _ => by cases h; exact ⟨Nat.le_of_ble_eq_true rfl, Nat.le_of_ble_eq_true rfl⟩
theorem ld_B_atHL : Statement .ld_B_atHL := fun _ h _ => by cases h; exact ⟨Nat.le_of_ble_eq_true rfl, Nat.le_of_ble_eq_true rfl⟩
theorem ld_B_A : Statement .ld_B_A := fun _ h _ => by cases h; exact ⟨Nat.le_of_ble_eq_true rfl, Nat.le_of_ble_eq_true rfl⟩
theorem ld_C_B : Statement .ld_C_B := fun _ h _ => by cases h; exact ⟨Nat.le_of_ble_eq_true rfl, Nat.le_of_ble_eq_true rfl⟩
theorem ld_C_C : Statement .ld_C_C := fun _ h _ => by cases h; exact ⟨Nat.le_of_ble_eq_true rfl, Nat.le_of_ble_eq_true rfl⟩
theorem ld_C_D : Statement .ld_C_D := fun _ h _ => by cases h; exact ⟨Nat.le_of_ble_eq_true rfl, Nat.le_of_ble_eq_true rfl⟩
theorem ld_C_E : Statement .ld_C_E := fun _ h _ => by cases h; exact ⟨Nat.le_of_ble_eq_true rfl, Nat.le_of_ble_eq_true rfl⟩
theorem ld_C_H : Statement .ld_C_H := fun _ h _ => by cases h; exact ⟨Nat.le_of_ble_eq_true rfl, Nat.le_of_ble_eq_true rfl⟩
theorem ld_C_L : Statement .ld_C_L := fun _ h _ => by cases h; exact ⟨Nat.le_of_ble_eq_true rfl, Nat.le_of_ble_eq_true rfl⟩
theorem ld_C_atHL : Statement .ld_C_atHL := fun _ h _ => by cases h; exact ⟨Nat.le_of_ble_eq_true rfl, Nat.le_of_ble_eq_true rfl⟩
theorem ld_C_A : Statement .ld_C_A := fun _ h _ => by cases h; exact ⟨Nat.le_of_ble_eq_true rfl, Nat.le_of_ble_eq_true rfl⟩
theorem ld_D_B : Statement .ld_D_B := fun _ h _ => by cases h; exact ⟨Nat.le_of_ble_eq_true rfl, Nat.le_of_ble_eq_true rfl⟩
theorem ld_D_C : Statement .ld_D_C := fun _ h _ => by cases h; exact ⟨Nat.le_of_ble_eq_true rfl, Nat.le_of_ble_eq_true rfl⟩
theorem ld_D_D : Statement .ld_D_D := fun _ h _ => by cases h; exact ⟨Nat.le_of_ble_eq_true rfl, Nat.le_of_ble_eq_true rfl⟩
theorem ld_D_E : Statement .ld_D_E := fun _ h _ => by cases h; exact ⟨Nat.le_of_ble_eq_true rfl, Nat.le_of_ble_eq_true rfl⟩
theorem ld_D_H : Statement .ld_D_H := fun _ h _ => by cases h; exact ⟨Nat.le_of_ble_eq_true rfl, Nat.le_of_ble_eq_true rfl⟩
theorem ld_D_L : Statement .ld_D_L := fun _ h _ => by cases h; exact ⟨Nat.le_of_ble_eq_true rfl, Nat.le_of_ble_eq_true rfl⟩
theorem ld_D_atHL : Statement .ld_D_atHL := fun _ h _ => by cases h; exact ⟨Nat.le_of_ble_eq_true rfl, Nat.le_of_ble_eq_true rfl⟩
theorem ld_D_A : Statement .ld_D_A := fun _ h _ => by cases h; exact ⟨Nat.le_of_ble_eq_true rfl, Nat.le_of_ble_eq_true rfl⟩
theorem ld_E_B : Statement .ld_E_B := fun _ h _ => by cases h; exact ⟨Nat.le_of_ble_eq_true rfl, Nat.le_of_ble_eq_true rfl⟩
theorem ld_E_C : Statement .ld_E_C := fun _ h _ => by cases h; exact ⟨Nat.le_of_ble_eq_true rfl, Nat.le_of_ble_eq_true rfl⟩
theorem ld_E_D : Statement .ld_E_D := fun _ h _ => by cases h; exact ⟨Nat.le_of_ble_eq_true rfl, Nat.le_of_ble_eq_true rfl⟩
theorem ld_E_E : Statement .ld_E_E := fun _ h _ => by cases h; exact ⟨Nat.le_of_ble_eq_true rfl, Nat.le_of_ble_eq_true rfl⟩
theorem ld_E_H : Statement .ld_E_H := fun _ h _ => by cases h; exact ⟨Nat.le_of_ble_eq_true rfl, Nat.le_of_ble_eq_true rfl⟩
theorem ld_E_L : Statement .ld_E_L := fun _ h _ => by cases h; exact ⟨Nat.le_of_ble_eq_true rfl, Nat.le_of_ble_eq_true rfl⟩
theorem ld_E_atHL : Statement .ld_E_atHL := fun _ h _ => by cases h; exact ⟨Nat.le_of_ble_eq_true rfl, Nat.le_of_ble_eq_true rfl⟩
theorem ld_E_A : Statement .ld_E_A := fun _ h _ => by cases h; exact ⟨Nat.le_of_ble_eq_true rfl, Nat.le_of_ble_eq_true rfl⟩
theorem ld_H_B : Statement .ld_H_B := fun _ h _ => by cases h; exact ⟨Nat.le_of_ble_eq_true rfl, Nat.le_of_ble_eq_true rfl⟩
theorem ld_H_C : Statement .ld_H_C := fun _ h _ => by cases h; exact ⟨Nat.le_of_ble_eq_true rfl, Nat.le_of_ble_eq_true rfl⟩
theorem ld_H_D : Statement .ld_H_D := fun _ h _ => by cases h; exact ⟨Nat.le_of_ble_eq_true rfl, Nat.le_of_ble_eq_true rfl⟩
theorem ld_H_E : Statement .ld_H_E := fun _ h _ => by cases h; exact ⟨Nat.le_of_ble_eq_true rfl, Nat.le_of_ble_eq_true rfl⟩
theorem ld_H_H : Statement .ld_H_H := fun _ h _ => by cases h; exact ⟨Nat.le_of_ble_eq_true rfl, Nat.le_of_ble_eq_true rfl⟩
theorem ld_H_L : Statement .ld_H_L := fun _ h _ => by cases h; exact ⟨Nat.le_of_ble_eq_true rfl, Nat.le_of_ble_eq_true rfl⟩
theorem ld_H_atHL : Statement .ld_H_atHL := fun _ h _ => by cases h; exact ⟨Nat.le_of_ble_eq_true rfl, Nat.le_of_ble_eq_true rfl⟩
theorem ld_H_A : Statement .ld_H_A := fun _ h _ => by cases h; exact ⟨Nat.le_of_ble_eq_true rfl, Nat.le_of_ble_eq_true rfl⟩
theorem ld_L_B : Statement .ld_L_B := fun _ h _ => by cases h; exact ⟨Nat.le_of_ble_eq_true rfl, Nat.le_of_ble_eq_true rfl⟩
theorem ld_L_C : Statement .ld_L_C := fun _ h _ => by cases h; exact ⟨Nat.le_of_ble_eq_true rfl, Nat.le_of_ble_eq_true rfl⟩
theorem ld_L_D : Statement .ld_L_D := fun _ h _ => by cases h; exact ⟨Nat.le_of_ble_eq_true rfl, Nat.le_of_ble_eq_true rfl⟩
theorem ld_L_E : Statement .ld_L_E := fun _ h _ => by cases h; exact ⟨Nat.le_of_ble_eq_true rfl, Nat.le_of_ble_eq_true rfl⟩
theorem ld_L_H : Statement .ld_L_H := fun _ h _ => by cases h; exact ⟨Nat.le_of_ble_eq_true rfl, Nat.le_of_ble_eq_true rfl⟩
theorem ld_L_L : Statement .ld_L_L := fun _ h _ => by cases h; exact ⟨Nat.le_of_ble_eq_true rfl, Nat.le_of_ble_eq_true rfl⟩
theorem ld_L_atHL : Statement .ld_L_atHL := fun _ h _ => by cases h; exact ⟨Nat.le_of_ble_eq_true rfl, Nat.le_of_ble_eq_true rfl⟩
theorem ld_L_A : Statement .ld_L_A := fun _ h _ => by cases h; exact ⟨Nat.le_of_ble_eq_true rfl, Nat.le_of_ble_eq_true rfl⟩
theorem ld_atHL_B : Statement .ld_atHL_B := fun _ h _ => by cases h; exact ⟨Nat.le_of_ble_eq_true rfl, Nat.le_of_ble_eq_true rfl⟩
theorem ld_atHL_C : Statement .ld_atHL_C := fun _ h _ => by cases h; exact ⟨Nat.le_of_ble_eq_true rfl, Nat.le_of_ble_eq_true rfl⟩
theorem ld_atHL_D : Statement .ld_atHL_D := fun _ h _ => by cases h; exact ⟨Nat.le_of_ble_eq_true rfl, Nat.le_of_ble_eq_true rfl⟩
theorem ld_atHL_E : Statement .ld_atHL_E := fun _ h _ => by cases h; exact ⟨Nat.le_of_ble_eq_true rfl, Nat.le_of_ble_eq_true rfl⟩
theorem ld_atHL_H : Statement .ld_atHL_H := fun _ h _ => by cases h; exact ⟨Nat.le_of_ble_eq_true rfl, Nat.le_of_ble_eq_true rfl⟩
theorem ld_atHL_L : Statement .ld_atHL_L := fun _ h _ => by cases h; exact ⟨Nat.le_of_ble_eq_true rfl, Nat.le_of_ble_eq_true rfl⟩
theorem halt : Statement .halt := fun _ h _ => by cases h; exact ⟨Nat.le_of_ble_eq_true rfl, Nat.le_of_ble_eq_true rfl⟩
theorem ld_atHL_A : Statement .ld_atHL_A := fun _ h _ => by cases h; exact ⟨Nat.le_of_ble_eq_true rfl, Nat.le_of_ble_eq_true rfl⟩
theorem ld_A_B : Statement .ld_A_B := fun _ h _ => by cases h; exact ⟨Nat.le_of_ble_eq_true rfl, Nat.le_of_ble_eq_true rfl⟩
theorem ld_A_C : Statement .ld_A_C := fun _ h _ => by cases h; exact ⟨Nat.le_of_ble_eq_true rfl, Nat.le_of_ble_eq_true rfl⟩
theorem ld_A_D : Statement .ld_A_D := fun _ h _ => by cases h; exact ⟨Nat.le_of_ble_eq_true rfl, Nat.le_of_ble_eq_true rfl⟩
theorem ld_A_E : Statement .ld_A_E := fun _ h _ => by cases h; exact ⟨Nat.le_of_ble_eq_true rfl, Nat.le_of_ble_eq_true rfl⟩
theorem ld_A_H : Statement .ld_A_H := fun _ h _ => by cases h; exact ⟨Nat.le_of_ble_eq_true rfl, Nat.le_of_ble_eq_true rfl⟩
theorem ld_A_L : Statement .ld_A_L := fun _ h _ => by cases h; exact ⟨Nat.le_of_ble_eq_true rfl, Nat.le_of_ble_eq_true rfl⟩
theorem ld_A_atHL : Statement .ld_A_atHL := fun _ h _ => by cases h; exact ⟨Nat.le_of_ble_eq_true rfl, Nat.le_of_ble_eq_true rfl⟩
theorem ld_A_A : Statement .ld_A_A := fun _ h _ => by cases h; exact ⟨Nat.le_of_ble_eq_true rfl, Nat.le_of_ble_eq_true rfl⟩
theorem add_A_B : Statement .add_A_B := fun _ h _ => by cases h; exact ⟨Nat.le_of_ble_eq_true rfl, Nat.le_of_ble_eq_true rfl⟩
theorem add_A_C : Statement .add_A_C := fun _ h _ => by cases h; exact ⟨Nat.le_of_ble_eq_true rfl, Nat.le_of_ble_eq_true rfl⟩
theorem add_A_D : Statement .add_A_D := fun _ h _ => by cases h; exact ⟨Nat.le_of_ble_eq_true rfl, Nat.le_of_ble_eq_true rfl⟩
theorem add_A_E : Statement .add_A_E := fun _ h _ => by cases h; exact ⟨Nat.le_of_ble_eq_true rfl, Nat.le_of_ble_eq_true rfl⟩
theorem add_A_H : Statement .add_A_H := fun _ h _ => by cases h; exact ⟨Nat.le_of_ble_eq_true rfl, Nat.le_of_ble_eq_true rfl⟩
theorem add_A_L : Statement .add_A_L := fun _ h _ => by cases h; exact ⟨Nat.le_of_ble_eq_true rfl, Nat.le_of_ble_eq_true rfl⟩
theorem add_A_atHL : Statement .add_A_atHL := fun _ h _ => by cases h; exact ⟨Nat.le_of_ble_eq_true rfl, Nat.le_of_ble_eq_true rfl⟩
theorem add_A_A : Statement .add_A_A := fun _ h _ => by cases h; exact ⟨Nat.le_of_ble_eq_true rfl, Nat.le_of_ble_eq_true rfl⟩
theorem adc_A_B : Statement .adc_A_B := fun _ h _ => by cases h; exact ⟨Nat.le_of_ble_eq_true rfl, Nat.le_of_ble_eq_true rfl⟩
theorem adc_A_C : Statement .adc_A_C := fun _ h _ => by cases h; exact ⟨Nat.le_of_ble_eq_true rfl, Nat.le_of_ble_eq_true rfl⟩
theorem adc_A_D : Statement .adc_A_D := fun _ h _ => by cases h; exact ⟨Nat.le_of_ble_eq_true rfl, Nat.le_of_ble_eq_true rfl⟩
theorem adc_A_E : Statement .adc_A_E := fun _ h _ => by cases h; exact ⟨Nat.le_of_ble_eq_true rfl, Nat.le_of_ble_eq_true rfl⟩
theorem adc_A_H : Statement .adc_A_H := fun _ h _ => by cases h; exact ⟨Nat.le_of_ble_eq_true rfl, Nat.le_of_ble_eq_true rfl⟩
theorem adc_A_L : Statement .adc_A_L := fun _ h _ => by cases h; exact ⟨Nat.le_of_ble_eq_true rfl, Nat.le_of_ble_eq_true rfl⟩
theorem adc_A_atHL : Statement .adc_A_atHL := fun _ h _ => by cases h; exact ⟨Nat.le_of_ble_eq_true rfl, Nat.le_of_ble_eq_true rfl⟩
theorem adc_A_A : Statement .adc_A_A := fun _ h _ => by cases h; exact ⟨Nat.le_of_ble_eq_true rfl, Nat.le_of_ble_eq_true rfl⟩
theorem sub_A_B : Statement .sub_A_B := fun _ h _ => by cases h; exact ⟨Nat.le_of_ble_eq_true rfl, Nat.le_of_ble_eq_true rfl⟩
theorem sub_A_C : Statement .sub_A_C := fun _ h _ => by cases h; exact ⟨Nat.le_of_ble_eq_true rfl, Nat.le_of_ble_eq_true rfl⟩
theorem sub_A_D : Statement .sub_A_D := fun _ h _ => by cases h; exact ⟨Nat.le_of_ble_eq_true rfl, Nat.le_of_ble_eq_true rfl⟩
theorem sub_A_E : Statement .sub_A_E := fun _ h _ => by cases h; exact ⟨Nat.le_of_ble_eq_true rfl, Nat.le_of_ble_eq_true rfl⟩
theorem sub_A_H : Statement .sub_A_H := fun _ h _ => by cases h; exact ⟨Nat.le_of_ble_eq_true rfl, Nat.le_of_ble_eq_true rfl⟩
theorem sub_A_L : Statement .sub_A_L := fun _ h _ => by cases h; exact ⟨Nat.le_of_ble_eq_true rfl, Nat.le_of_ble_eq_true rfl⟩
theorem sub_A_atHL : Statement .sub_A_atHL := fun _ h _ => by cases h; exact ⟨Nat.le_of_ble_eq_true rfl, Nat.le_of_ble_eq_true rfl⟩
theorem sub_A_A : Statement .sub_A_A := fun _ h _ => by cases h; exact ⟨Nat.le_of_ble_eq_true rfl, Nat.le_of_ble_eq_true rfl⟩
theorem sbc_A_B : Statement .sbc_A_B := fun _ h _ => by cases h; exact ⟨Nat.le_of_ble_eq_true rfl, Nat.le_of_ble_eq_true rfl⟩
theorem sbc_A_C : Statement .sbc_A_C := fun _ h _ => by cases h; exact ⟨Nat.le_of_ble_eq_true rfl, Nat.le_of_ble_eq_true rfl⟩
theorem sbc_A_D : Statement .sbc_A_D := fun _ h _ => by cases h; exact ⟨Nat.le_of_ble_eq_true rfl, Nat.le_of_ble_eq_true rfl⟩
theorem sbc_A_E : Statement .sbc_A_E := fun _ h _ => by cases h; exact ⟨Nat.le_of_ble_eq_true rfl, Nat.le_of_ble_eq_true rfl⟩
theorem sbc_A_H : Statement .sbc_A_H := fun _ h _ => by cases h; exact ⟨Nat.le_of_ble_eq_true rfl, Nat.le_of_ble_eq_true rfl⟩
theorem sbc_A_L : Statement .sbc_A_L := fun _ h _ => by cases h; exact ⟨Nat.le_of_ble_eq_true rfl, Nat.le_of_ble_eq_true rfl⟩
theorem sbc_A_atHL : Statement .sbc_A_atHL := fun _ h _ => by cases h; exact ⟨Nat.le_of_ble_eq_true rfl, Nat.le_of_ble_eq_true rfl⟩
theorem sbc_A_A : Statement .sbc_A_A := fun _ h _ => by cases h; exact ⟨Nat.le_of_ble_eq_true rfl, Nat.le_of_ble_eq_true rfl⟩
theorem and_A_B : Statement .and_A_B := fun _ h _ => by cases h; exact ⟨Nat.le_of_ble_eq_true rfl, Nat.le_of_ble_eq_true rfl⟩
theorem and_A_C : Statement .and_A_C := fun _ h _ => by cases h; exact ⟨Nat.le_of_ble_eq_true rfl, Nat.le_of_ble_eq_true rfl⟩
theorem and_A_D : Statement .and_A_D := fun _ h _ => by cases h; exact ⟨Nat.le_of_ble_eq_true rfl, Nat.le_of_ble_eq_true rfl⟩
theorem and_A_E : Statement .and_A_E := fun _ h _ => by cases h; exact ⟨Nat.le_of_ble_eq_true rfl, Nat.le_of_ble_eq_true rfl⟩
theorem and_A_H : Statement .and_A_H := fun _ h _ => by cases h; exact ⟨Nat.le_of_ble_eq_true rfl, Nat.le_of_ble_eq_true rfl⟩
theorem and_A_L : Statement .and_A_L := fun _ h _ => by cases h; exact ⟨Nat.le_of_ble_eq_true rfl, Nat.le_of_ble_eq_true rfl⟩
theorem and_A_atHL : Statement .and_A_atHL := fun _ h _ => by cases h; exact ⟨Nat.le_of_ble_eq_true rfl, Nat.le_of_ble_eq_true rfl⟩
theorem and_A_A : Statement .and_A_A := fun _ h _ => by cases h; exact ⟨Nat.le_of_ble_eq_true rfl, Nat.le_of_ble_eq_true rfl⟩
theorem xor_A_B : Statement .xor_A_B := fun _ h _ => by cases h; exact ⟨Nat.le_of_ble_eq_true rfl, Nat.le_of_ble_eq_true rfl⟩
theorem xor_A_C : Statement .xor_A_C := fun _ h _ => by cases h; exact ⟨Nat.le_of_ble_eq_true rfl, Nat.le_of_ble_eq_true rfl⟩
theorem xor_A_D : Statement .xor_A_D := fun _ h _ => by cases h; exact ⟨Nat.le_of_ble_eq_true rfl, Nat.le_of_ble_eq_true rfl⟩
theorem xor_A_E : Statement .xor_A_E := fun _ h _ => by cases h; exact ⟨Nat.le_of_ble_eq_true rfl, Nat.le_of_ble_eq_true rfl⟩
theorem xor_A_H : Statement .xor_A_H := fun _ h _ => by cases h; exact ⟨Nat.le_of_ble_eq_true rfl, Nat.le_of_ble_eq_true rfl⟩
theorem xor_A_L : Statement .xor_A_L := fun _ h _ => by cases h; exact ⟨Nat.le_of_ble_eq_true rfl, Nat.le_of_ble_eq_true rfl⟩
theorem xor_A_atHL : Statement .xor_A_atHL := fun _ h _ => by cases h; exact ⟨Nat.le_of_ble_eq_true rfl, Nat.le_of_ble_eq_true rfl⟩
theorem xor_A_A : Statement .xor_A_A := fun _ h _ => by cases h; exact ⟨Nat.le_of_ble_eq_true rfl, Nat.le_of_ble_eq_true rfl⟩
theorem or_A_B : Statement .or_A_B := fun _ h _ => by cases h; exact ⟨Nat.le_of_ble_eq_true rfl, Nat.le_of_ble_eq_true rfl⟩
theorem or_A_C : Statement .or_A_C := fun _ h _ => by cases h; exact ⟨Nat.le_of_ble_eq_true rfl, Nat.le_of_ble_eq_true rfl⟩
theorem or_A_D : Statement .or_A_D := fun _ h _ => by cases h; exact ⟨Nat.le_of_ble_eq_true rfl, Nat.le_of_ble_eq_true rfl⟩
theorem or_A_E : Statement .or_A_E := fun _ h _ => by cases h; exact ⟨Nat.le_of_ble_eq_true rfl, Nat.le_of_ble_eq_true rfl⟩
theorem or_A_H : Statement .or_A_H := fun _ h _ => by cases h; exact ⟨Nat.le_of_ble_eq_true rfl, Nat.le_of_ble_eq_true rfl⟩
theorem or_A_L : Statement .or_A_L := fun _ h _ => by cases h; exact ⟨Nat.le_of_ble_eq_true rfl, Nat.le_of_ble_eq_true rfl⟩
theorem or_A_atHL : Statement .or_A_atHL := fun _ h _ => by cases h; exact ⟨Nat.le_of_ble_eq_true rfl, Nat.le_of_ble_eq_true rfl⟩
theorem or_A_A : Statement .or_A_A := fun _ h _ => by cases h; exact ⟨Nat.le_of_ble_eq_true rfl, Nat.le_of_ble_eq_true rfl⟩
theorem cp_A_B : Statement .cp_A_B := fun _ h _ => by cases h; exact ⟨Nat.le_of_ble_eq_true rfl, Nat.le_of_ble_eq_true rfl⟩
theorem cp_A_C : Statement .cp_A_C := fun _ h _ => by cases h; exact ⟨Nat.le_of_ble_eq_true rfl, Nat.le_of_ble_eq_true rfl⟩
theorem cp_A_D : Statement .cp_A_D := fun _ h _ => by cases h; exact ⟨Nat.le_of_ble_eq_true rfl, Nat.le_of_ble_eq_true rfl⟩
theorem cp_A_E : Statement .cp_A_E := fun _ h _ => by cases h; exact ⟨Nat.le_of_ble_eq_true rfl, Nat.le_of_ble_eq_true rfl⟩
theorem cp_A_H : Statement .cp_A_H := fun _ h _ => by cases h; exact ⟨Nat.le_of_ble_eq_true rfl, Nat.le_of_ble_eq_true rfl⟩
theorem cp_A_L : Statement .cp_A_L := fun _ h _ => by cases h; exact ⟨Nat.le_of_ble_eq_true rfl, Nat.le_of_ble_eq_true rfl⟩
theorem cp_A_atHL : Statement .cp_A_atHL := fun _ h _ => by cases h; exact ⟨Nat.le_of_ble_eq_true rfl, Nat.le_of_ble_eq_true rfl⟩
theorem cp_A_A : Statement .cp_A_A := fun _ h _ => by cases h; exact ⟨Nat.le_of_ble_eq_true rfl, Nat.le_of_ble_eq_true rfl⟩
theorem ret_NZ : Statement .ret_NZ := fun _ h _ => by cases h; exact ⟨Nat.le_of_ble_eq_true rfl, Nat.le_of_ble_eq_true rfl⟩
theorem pop_BC : Statement .pop_BC := fun _ h _ => by cases h; exact ⟨Nat.le_of_ble_eq_true rfl, Nat.le_of_ble_eq_true rfl⟩
theorem jp_NZ_nn : Statement .jp_NZ_nn := fun _ h _ => by cases h; exact ⟨Nat.le_of_ble_eq_true rfl, Nat.le_of_ble_eq_true rfl⟩
theorem jp_nn : Statement .jp_nn := fun _ h _ => by cases h; exact ⟨Nat.le_of_ble_eq_true rfl, Nat.le_of_ble_eq_true rfl⟩
theorem call_NZ_nn : Statement .call_NZ_nn := fun _ h _ => by cases h; exact ⟨Nat.le_of_ble_eq_true rfl, Nat.le_of_ble_eq_true rfl⟩
theorem push_BC : Statement .push_BC := fun _ h _ => by cases h; exact ⟨Nat.le_of_ble_eq_true rfl, Nat.le_of_ble_eq_true rfl⟩
theorem add_A_n : Statement .add_A_n := fun _ h _ => by cases h; exact ⟨Nat.le_of_ble_eq_true rfl, Nat.le_of_ble_eq_true rfl⟩
theorem rst_00h : Statement .rst_00h := fun _ h _ => by cases h; exact ⟨Nat.le_of_ble_eq_true rfl, Nat.le_of_ble_eq_true rfl⟩
theorem ret_Z : Statement .ret_Z := fun _ h _ => by cases h; exact ⟨Nat.le_of_ble_eq_true rfl, Nat.le_of_ble_eq_true rfl⟩
theorem ret : Statement .ret := fun _ h _ => by cases h; exact ⟨Nat.le_of_ble_eq_true rfl, Nat.le_of_ble_eq_true rfl⟩
theorem jp_Z_nn : Statement .jp_Z_nn := fun _ h _ => by cases h; exact ⟨Nat.le_of_ble_eq_true rfl, Nat.le_of_ble_eq_true rfl⟩
theorem call_Z_nn : Statement .call_Z_nn := fun _ h _ => by cases h; exact ⟨Nat.le_of_ble_eq_true rfl, Nat.le_of_ble_eq_true rfl⟩
theorem call_nn : Statement .call_nn := fun _ h _ => by cases h; exact ⟨Nat.le_of_ble_eq_true rfl, Nat.le_of_ble_eq_true rfl⟩
theorem adc_A_n : Statement .adc_A_n := fun _ h _ => by cases h; exact ⟨Nat.le_of_ble_eq_true rfl, Nat.le_of_ble_eq_true rfl⟩
theorem rst_08h : Statement .rst_08h := fun _ h _ => by cases h; exact ⟨Nat.le_of_ble_eq_true rfl, Nat.le_of_ble_eq_true rfl⟩
theorem ret_NC : Statement .ret_NC := fun _ h _ => by cases h; exact ⟨Nat.le_of_ble_eq_true rfl, Nat.le_of_ble_eq_true rfl⟩
theorem pop_DE : Statement .pop_DE := fun _ h _ => by cases h; exact ⟨Nat.le_of_ble_eq_true rfl, Nat.le_of_ble_eq_true rfl⟩
theorem jp_NC_nn : Statement .jp_NC_nn := fun _ h _ => by cases h; exact ⟨Nat.le_of_ble_eq_true rfl, Nat.le_of_ble_eq_true rfl⟩
theorem call_NC_nn : Statement .call_NC_nn := fun _ h _ => by cases h; exact ⟨Nat.le_of_ble_eq_true rfl, Nat.le_of_ble_eq_true rfl⟩
theorem push_DE : Statement .push_DE := fun _ h _ => by cases h; exact ⟨Nat.le_of_ble_eq_true rfl, Nat.le_of_ble_eq_true rfl⟩
theorem sub_A_n : Statement .sub_A_n := fun _ h _ => by cases h; exact ⟨Nat.le_of_ble_eq_true rfl, Nat.le_of_ble_eq_true rfl⟩
theorem rst_10h : Statement .rst_10h := fun _ h _ => by cases h; exact ⟨Nat.le_of_ble_eq_true rfl, Nat.le_of_ble_eq_true rfl⟩
theorem ret_C : Statement .ret_C := fun _ h _ => by cases h; exact ⟨Nat.le_of_ble_eq_true rfl, Nat.le_of_ble_eq_true rfl⟩
theorem reti : Statement .reti := fun _ h _ => by cases h; exact ⟨Nat.le_of_ble_eq_true rfl, Nat.le_of_ble_eq_true rfl⟩
theorem jp_C_nn : Statement .jp_C_nn := fun _ h _ => by cases h; exact ⟨Nat.le_of_ble_eq_true rfl, Nat.le_of_ble_eq_true rfl⟩
theorem call_C_nn : Statement .call_C_nn := fun _ h _ => by cases h; exact ⟨Nat.le_of_ble_eq_true rfl, Nat.le_of_ble_eq_true rfl⟩
theorem sbc_A_n : Statement .sbc_A_n := fun _ h _ => by cases h; exact ⟨Nat.le_of_ble_eq_true rfl, Nat.le_of_ble_eq_true rfl⟩
theorem rst_18h : Statement .rst_18h := fun _ h _ => by cases h; exact ⟨Nat.le_of_ble_eq_true rfl, Nat.le_of_ble_eq_true rfl⟩
theorem ldh_atN_A : Statement .ldh_atN_A := fun _ h _ => by cases h; exact ⟨Nat.le_of_ble_eq_true rfl, Nat.le_of_ble_eq_true rfl⟩
theorem pop_HL : Statement .pop_HL := fun _ h _ => by cases h; exact ⟨Nat.le_of_ble_eq_true rfl, Nat.le_of_ble_eq_true rfl⟩
theorem ld_atC_A : Statement .ld_atC_A := fun _ h _ => by cases h; exact ⟨Nat.le_of_ble_eq_true rfl, Nat.le_of_ble_eq_true rfl⟩
theorem push_HL : Statement .push_HL := fun _ h _ => by cases h; exact ⟨Nat.le_of_ble_eq_true rfl, Nat.le_of_ble_eq_true rfl⟩
theorem and_A_n : Statement .and_A_n := fun _ h _ => by cases h; exact ⟨Nat.le_of_ble_eq_true rfl, Nat.le_of_ble_eq_true rfl⟩
theorem rst_20h : Statement .rst_20h := fun _ h _ => by cases h; exact ⟨Nat.le_of_ble_eq_true rfl, Nat.le_of_ble_eq_true rfl⟩
theorem add_SP_e : Statement .add_SP_e := fun _ h _ => by cases h; exact ⟨Nat.le_of_ble_eq_true rfl, Nat.le_of_ble_eq_true rfl⟩
theorem jp_HL : Statement .jp_HL := fun _ h _ => by cases h; exact ⟨Nat.le_of_ble_eq_true rfl, Nat.le_of_ble_eq_true rfl⟩
theorem ld_atNN_A : Statement .ld_atNN_A := fun _ h _ => by cases h; exact ⟨Nat.le_of_ble_eq_true rfl, Nat.le_of_ble_eq_true rfl⟩
theorem xor_A_n : Statement .xor_A_n := fun _ h _ => by cases h; exact ⟨Nat.le_of_ble_eq_true rfl, Nat.le_of_ble_eq_true rfl⟩
theorem rst_28h : Statement .rst_28h := fun _ h _ => by cases h; exact ⟨Nat.le_of_ble_eq_true rfl, Nat.le_of_ble_eq_true rfl⟩
theorem ldh_A_atN : Statement .ldh_A_atN := fun _ h _ => by cases h; exact ⟨Nat.le_of_ble_eq_true rfl, Nat.le_of_ble_eq_true rfl⟩
theorem pop_AF : Statement .pop_AF := fun _ h _ => by cases h; exact ⟨Nat.le_of_ble_eq_true rfl, Nat.le_of_ble_eq_true rfl⟩
theorem ld_A_atC : Statement .ld_A_atC := fun _ h _ => by cases h; exact ⟨Nat.le_of_ble_eq_true rfl, Nat.le_of_ble_eq_true rfl⟩
theorem di : Statement .di := fun _ h _ => by cases h; exact ⟨Nat.le_of_ble_eq_true rfl, Nat.le_of_ble_eq_true rfl⟩
theorem push_AF : Statement .push_AF := fun _ h _ => by cases h; exact ⟨Nat.le_of_ble_eq_true rfl, Nat.le_of_ble_eq_true rfl⟩
theorem or_A_n : Statement .or_A_n := fun _ h _ => by cases h; exact ⟨Nat.le_of_ble_eq_true rfl, Nat.le_of_ble_eq_true rfl⟩
theorem rst_30h : Statement .rst_30h := fun _ h _ => by cases h; exact ⟨Nat.le_of_ble_eq_true rfl, Nat.le_of_ble_eq_true rfl⟩
theorem ld_HL_SPe : Statement .ld_HL_SPe := fun _ h _ => by cases h; exact ⟨Nat.le_of_ble_eq_true rfl, Nat.le_of_ble_eq_true rfl⟩
theorem ld_SP_HL : Statement .ld_SP_HL := fun _ h _ => by cases h; exact ⟨Nat.le_of_ble_eq_true rfl, Nat.le_of_ble_eq_true rfl⟩
theorem ld_A_atNN : Statement .ld_A_atNN := fun _ h _ => by cases h; exact ⟨Nat.le_of_ble_eq_true rfl, Nat.le_of_ble_eq_true rfl⟩
theorem ei : Statement .ei := fun _ h _ => by cases h; exact ⟨Nat.le_of_ble_eq_true rfl, Nat.le_of_ble_eq_true rfl⟩
theorem cp_A_n : Statement .cp_A_n := fun _ h _ => by cases h; exact ⟨Nat.le_of_ble_eq_true rfl, Nat.le_of_ble_eq_true rfl⟩
theorem rst_38h : Statement .rst_38h := fun _ h _ => by cases h; exact ⟨Nat.le_of_ble_eq_true rfl, Nat.le_of_ble_eq_true rfl⟩
theorem prefixCb : Statement .prefixCb := nofun

end Sys2Proof.Laws.EncodedLength
end

