-- ==== Sys2Proof/Tests/Slice0.lean ====
section
/-! SUPPORT. The model's own tests. Every expected result is from spec/: the vectors of 95_test_vectors.md (named V-… at
each test), the encodings of 30_encoding.md and 40_load.md to 45_prefixed.md, and the admitted combinations of R73. The last
part shows, for each obligation with hypotheses, concrete states and operands that meet them, clause by clause. -/

namespace Sys2Proof.Tests

open Sys2Proof.Machine

/-! ## Helpers -/

/-- Bytes placed from an address on. -/
def place : Word → List Byte → State → State
  | _, [], s => s
  | a, b :: rest, s => place (a + 1) rest (s.setByte a b)

/-- The state after reset with the reference cycle table of R186, whose entries the vectors use. -/
def base : State := State.resetWith { defaultConfig with cycles := .reference }

/-- The same with the full prefixed table. -/
def baseFull : State := State.resetWith { defaultConfig with cycles := .reference, prefixTable := .full }

/-- The same with the short store. -/
def baseShort : State := State.resetWith { defaultConfig with cycles := .reference, memSize := .short }

/-- The same with no register holding a value. -/
def baseBare : State := State.resetWith { defaultConfig with cycles := .reference, resetRegs := .undefined }

/-- A state with bytes at 0x0100 and PC there. -/
def at100 (bytes : List Byte) : State := { place 0x0100 bytes base with pc := 0x0100 }

def full100 (bytes : List Byte) : State := { place 0x0100 bytes baseFull with pc := 0x0100 }

def short100 (bytes : List Byte) : State := { place 0x0100 bytes baseShort with pc := 0x0100 }

/-- HL set to 0xC000 and a byte there. -/
def hlC000 (s : State) (v : Byte) : State := (s.setPair .hl 0xC000).setByte 0xC000 v

/-- The flags of a packed byte. -/
def fl (b : Byte) : Flags := decodeFlags b

/-- What one step leaves passes the check. -/
def after (s : State) (check : State → Bool) : Bool :=
  match step s with
  | .next t => check t
  | .fault _ | .refused _ => false

/-- A step raises this fault. -/
def stops (s : State) (f : Fault) : Bool :=
  match step s with
  | .fault g => g == f
  | .next _ | .refused _ => false

/-- Whether an outcome is a next state. -/
def goesOn (o : Host.Outcome State Fault Refusal) : Bool :=
  match o with
  | .next _ => true
  | .fault _ | .refused _ => false

/-- The packed flags. -/
def pf (t : State) : Byte := encodeFlags t.f

/-! ## Loads and stores (95_test_vectors.md 2.1) -/

/-- V-L1. -/
theorem test_ld_r_r :
    after ({ at100 [0x78] with b := 0x5C, f := fl 0xF0 })
      (fun t => t.a == 0x5C && pf t == 0xF0 && t.pc == 0x0101 && t.lastCycles == 4) = true := by
  decide

/-- V-L3. -/
theorem test_ld_r_n :
    after (at100 [0x3E, 0x42])
      (fun t => t.a == 0x42 && t.pc == 0x0102 && t.lastCycles == 8) = true := by
  decide

/-- V-L4. -/
theorem test_ld_r_atHL :
    after (hlC000 (at100 [0x7E]) 0x9D)
      (fun t => t.a == 0x9D && t.pc == 0x0101 && t.lastCycles == 8) = true := by
  decide

/-- R91: the address is formed before H is written. -/
theorem test_ld_h_atHL :
    after (hlC000 (at100 [0x66]) 0x21)
      (fun t => t.h == 0x21 && t.l == 0x00 && t.pc == 0x0101 && t.lastCycles == 8) = true := by
  decide

/-- V-L5. -/
theorem test_ld_atHL_r :
    after ({ hlC000 (at100 [0x70]) 0 with b := 0x21 })
      (fun t => t.byteAt 0xC000 == 0x21 && t.lastCycles == 8) = true := by
  decide

/-- V-L6. -/
theorem test_ld_atHL_n :
    after (hlC000 (at100 [0x36, 0x44]) 0)
      (fun t => t.byteAt 0xC000 == 0x44 && t.pc == 0x0102 && t.lastCycles == 12) = true := by
  decide

/-- V-L7. -/
theorem test_ld_a_atBC :
    after (((at100 [0x0A]).setPair .bc 0xC010).setByte 0xC010 0x07)
      (fun t => t.a == 0x07 && t.lastCycles == 8) = true := by
  decide

/-- V-L8. -/
theorem test_ld_atDE_a :
    after ({ (at100 [0x12]).setPair .de 0xC020 with a := 0xE1 })
      (fun t => t.byteAt 0xC020 == 0xE1 && t.lastCycles == 8) = true := by
  decide

/-- V-L9. -/
theorem test_ld_atHLi_a :
    after ({ (at100 [0x22]).setPair .hl 0xFFFF with a := 0x11 })
      (fun t => t.byteAt 0xFFFF == 0x11 && t.pair .hl == 0x0000 && t.lastCycles == 8) = true := by
  decide

/-- V-L10. -/
theorem test_ld_a_atHLd :
    after (((at100 [0x3A]).setPair .hl 0x0000).setByte 0x0000 0x5E)
      (fun t => t.a == 0x5E && t.pair .hl == 0xFFFF && t.lastCycles == 8) = true := by
  decide

/-- V-L11. -/
theorem test_ld_a_atHLi :
    after (((at100 [0x2A]).setPair .hl 0xC0FF).setByte 0xC0FF 0x66)
      (fun t => t.a == 0x66 && t.pair .hl == 0xC100) = true := by
  decide

/-- V-L12. -/
theorem test_ld_atHLd_a :
    after ({ (at100 [0x32]).setPair .hl 0xC100 with a := 0x77 })
      (fun t => t.byteAt 0xC100 == 0x77 && t.pair .hl == 0xC0FF) = true := by
  decide

/-- V-L13. -/
theorem test_ld_a_atNN :
    after ((at100 [0xFA, 0x34, 0x12]).setByte 0x1234 0xAB)
      (fun t => t.a == 0xAB && t.pc == 0x0103 && t.lastCycles == 16) = true := by
  decide

/-- V-L14. -/
theorem test_ld_a_atNN_wraps :
    after ({ place 0xFFFF [0xFA, 0x02, 0x00, 0x99] base with pc := 0xFFFF })
      (fun t => t.a == 0x99 && t.pc == 0x0002) = true := by
  decide

/-- V-L15. -/
theorem test_ld_atNN_a :
    after ({ at100 [0xEA, 0x00, 0xC0] with a := 0x3C })
      (fun t => t.byteAt 0xC000 == 0x3C && t.pc == 0x0103 && t.lastCycles == 16) = true := by
  decide

/-- V-L16. -/
theorem test_ldh_atN_a :
    after ({ at100 [0xE0, 0x80] with a := 0x5A })
      (fun t => t.byteAt 0xFF80 == 0x5A && t.pc == 0x0102 && t.lastCycles == 12) = true := by
  decide

/-- V-L17. -/
theorem test_ldh_a_atN :
    after ((at100 [0xF0, 0xFF]).setByte 0xFFFF 0x12)
      (fun t => t.a == 0x12 && t.lastCycles == 12) = true := by
  decide

/-- V-L18. -/
theorem test_ld_atC_a :
    after ({ at100 [0xE2] with c := 0x0F, a := 0x01 })
      (fun t => t.byteAt 0xFF0F == 0x01 && t.pc == 0x0101 && t.lastCycles == 8) = true := by
  decide

/-- V-L19. -/
theorem test_ld_a_atC :
    after ((at100 [0xF2]).setByte 0xFF00 0xCF)
      (fun t => t.a == 0xCF && t.pc == 0x0101 && t.lastCycles == 8) = true := by
  decide

/-- V-L20. -/
theorem test_ld_rr_nn :
    after (at100 [0x01, 0xCD, 0xAB])
      (fun t => t.b == 0xAB && t.c == 0xCD && t.pc == 0x0103 && t.lastCycles == 12) = true := by
  decide

/-- V-L23. -/
theorem test_ld_atNN_sp :
    after ({ at100 [0x08, 0xFF, 0xFF] with sp := 0x1234 })
      (fun t => t.byteAt 0xFFFF == 0x34 && t.byteAt 0x0000 == 0x12 && t.pc == 0x0103 && t.lastCycles == 20) = true := by
  decide

/-- V-L24. -/
theorem test_ld_sp_hl :
    after ((at100 [0xF9]).setPair .hl 0xC123)
      (fun t => t.sp == 0xC123 && t.pc == 0x0101 && t.lastCycles == 8) = true := by
  decide

/-- V-L27. -/
theorem test_ld_hl_spe_negative :
    after ({ at100 [0xF8, 0x80] with sp := 0x8000 })
      (fun t => t.pair .hl == 0x7F80 && pf t == 0x00 && t.pc == 0x0102 && t.lastCycles == 12) = true := by
  decide

/-- V-L28. -/
theorem test_ld_hl_spe_zero :
    after ({ at100 [0xF8, 0x08] with sp := 0xFFF8 })
      (fun t => t.pair .hl == 0x0000 && pf t == 0x30) = true := by
  decide

/-- V-L29. -/
theorem test_push_bc_wraps :
    after ({ at100 [0xC5] with sp := 0x0001, b := 0xAB, c := 0xCD })
      (fun t => t.byteAt 0x0000 == 0xAB && t.byteAt 0xFFFF == 0xCD && t.sp == 0xFFFF && t.lastCycles == 16) = true := by
  decide

/-- V-L30. -/
theorem test_push_af :
    after ({ at100 [0xF5] with sp := 0xC002, a := 0x12, f := fl 0xB0 })
      (fun t => t.byteAt 0xC001 == 0x12 && t.byteAt 0xC000 == 0xB0 && t.sp == 0xC000 && t.lastCycles == 16) = true := by
  decide

/-- V-L31. -/
theorem test_pop_af :
    after (place 0xC000 [0xFF, 0x12] ({ at100 [0xF1] with sp := 0xC000 }))
      (fun t => t.a == 0x12 && pf t == 0xF0 && t.sp == 0xC002 && t.lastCycles == 12) = true := by
  decide

/-- V-L32. -/
theorem test_pop_de_wraps :
    after (place 0xFFFF [0x34, 0x12] ({ at100 [0xD1] with sp := 0xFFFF }))
      (fun t => t.pair .de == 0x1234 && t.sp == 0x0001 && t.lastCycles == 12) = true := by
  decide

/-! ## 8-bit arithmetic (2.2) -/

/-- V-A1, S8. -/
theorem test_add :
    after ({ at100 [0x80] with a := 0xFF, b := 0x01 })
      (fun t => t.a == 0x00 && pf t == 0xB0 && t.pc == 0x0101 && t.lastCycles == 4) = true := by
  decide

/-- V-A2. -/
theorem test_add_half :
    after ({ at100 [0x80] with a := 0x0F, b := 0x01 })
      (fun t => t.a == 0x10 && pf t == 0x20) = true := by
  decide

/-- V-A5. -/
theorem test_adc :
    after ({ at100 [0x88] with a := 0xFF, b := 0x00, f := fl 0x10 })
      (fun t => t.a == 0x00 && pf t == 0xB0) = true := by
  decide

/-- V-A6. -/
theorem test_adc_half :
    after ({ at100 [0x88] with a := 0x0E, b := 0x01, f := fl 0x10 })
      (fun t => t.a == 0x10 && pf t == 0x20) = true := by
  decide

/-- V-A9. -/
theorem test_sub :
    after ({ at100 [0x90] with a := 0x3E, b := 0x0F })
      (fun t => t.a == 0x2F && pf t == 0x60) = true := by
  decide

/-- V-A10. -/
theorem test_sub_borrow :
    after ({ at100 [0x90] with a := 0x00, b := 0x01 })
      (fun t => t.a == 0xFF && pf t == 0x70) = true := by
  decide

/-- V-A12. -/
theorem test_sbc :
    after ({ at100 [0x98] with a := 0x00, b := 0xFF, f := fl 0x10 })
      (fun t => t.a == 0x00 && pf t == 0xF0) = true := by
  decide

/-- V-A13. -/
theorem test_sbc_plain :
    after ({ at100 [0x98] with a := 0x3B, b := 0x2A, f := fl 0x10 })
      (fun t => t.a == 0x10 && pf t == 0x40) = true := by
  decide

/-- V-A15. -/
theorem test_and :
    after ({ at100 [0xA0] with a := 0xF0, b := 0x0F, f := fl 0x10 })
      (fun t => t.a == 0x00 && pf t == 0xA0) = true := by
  decide

/-- V-A17. -/
theorem test_xor :
    after ({ at100 [0xA8] with a := 0xFF, b := 0x0F })
      (fun t => t.a == 0xF0 && pf t == 0x00) = true := by
  decide

/-- V-A18. -/
theorem test_or :
    after ({ at100 [0xB0] with a := 0x00, b := 0x00, f := fl 0x30 })
      (fun t => t.a == 0x00 && pf t == 0x80) = true := by
  decide

/-- V-A22. -/
theorem test_cp :
    after ({ at100 [0xB8] with a := 0x3C, b := 0x40 })
      (fun t => t.a == 0x3C && pf t == 0x50) = true := by
  decide

/-- V-A21. -/
theorem test_cp_equal :
    after ({ at100 [0xB8] with a := 0x3C, b := 0x3C })
      (fun t => t.a == 0x3C && pf t == 0xC0) = true := by
  decide

/-- V-A23. -/
theorem test_inc :
    after ({ at100 [0x04] with b := 0xFF, f := fl 0x10 })
      (fun t => t.b == 0x00 && pf t == 0xB0) = true := by
  decide

/-- V-A26. -/
theorem test_dec :
    after ({ at100 [0x05] with b := 0x00, f := fl 0x10 })
      (fun t => t.b == 0xFF && pf t == 0x70) = true := by
  decide

/-- V-A28. -/
theorem test_inc_atHL :
    after (hlC000 (at100 [0x34]) 0xFF)
      (fun t => t.byteAt 0xC000 == 0x00 && pf t == 0xA0 && t.lastCycles == 12) = true := by
  decide

/-- V-A29. -/
theorem test_add_atHL :
    after ({ hlC000 (at100 [0x86]) 0x0F with a := 0x01 })
      (fun t => t.a == 0x10 && pf t == 0x20 && t.lastCycles == 8) = true := by
  decide

/-- V-A31. -/
theorem test_sub_n :
    after ({ at100 [0xD6, 0x01] with a := 0x00 })
      (fun t => t.a == 0xFF && pf t == 0x70 && t.pc == 0x0102 && t.lastCycles == 8) = true := by
  decide

/-- V-A37. -/
theorem test_daa_add :
    after ({ at100 [0x27] with a := 0x9F })
      (fun t => t.a == 0x05 && pf t == 0x10) = true := by
  decide

/-- V-A35. -/
theorem test_daa_sub :
    after ({ at100 [0x27] with a := 0x4B, f := fl 0x60 })
      (fun t => t.a == 0x45 && pf t == 0x40) = true := by
  decide

/-- V-A39. -/
theorem test_cpl :
    after ({ at100 [0x2F] with a := 0x35 })
      (fun t => t.a == 0xCA && pf t == 0x60) = true := by
  decide

/-- V-A40. -/
theorem test_scf :
    after ({ at100 [0x37] with f := fl 0xE0 })
      (fun t => pf t == 0x90) = true := by
  decide

/-- V-A41. -/
theorem test_ccf :
    after ({ at100 [0x3F] with f := fl 0x70 })
      (fun t => pf t == 0x00) = true := by
  decide

/-- V-A44. -/
theorem test_rlca :
    after ({ at100 [0x07] with a := 0x00, f := fl 0x80 })
      (fun t => t.a == 0x00 && pf t == 0x00) = true := by
  decide

/-- V-A43. -/
theorem test_rlca_carry :
    after ({ at100 [0x07] with a := 0x85 })
      (fun t => t.a == 0x0B && pf t == 0x10) = true := by
  decide

/-- V-A45. -/
theorem test_rrca :
    after ({ at100 [0x0F] with a := 0x01 })
      (fun t => t.a == 0x80 && pf t == 0x10) = true := by
  decide

/-- V-A47. -/
theorem test_rla :
    after ({ at100 [0x17] with a := 0x95, f := fl 0x10 })
      (fun t => t.a == 0x2B && pf t == 0x10) = true := by
  decide

/-- V-A49. -/
theorem test_rra :
    after ({ at100 [0x1F] with a := 0x00, f := fl 0x10 })
      (fun t => t.a == 0x80 && pf t == 0x00) = true := by
  decide

/-! ## 16-bit arithmetic (2.3) -/

/-- V-W1. -/
theorem test_inc_sp :
    after ({ at100 [0x33] with f := fl 0xF0 })
      (fun t => t.sp == 0x0000 && pf t == 0xF0 && t.lastCycles == 8) = true := by
  decide

/-- V-W2. -/
theorem test_dec_bc :
    after (at100 [0x0B])
      (fun t => t.pair .bc == 0xFFFF && pf t == 0x00 && t.lastCycles == 8) = true := by
  decide

/-- V-W3. -/
theorem test_inc_hl :
    after ((at100 [0x23]).setPair .hl 0x00FF)
      (fun t => t.pair .hl == 0x0100 && t.lastCycles == 8) = true := by
  decide

/-- V-W4. -/
theorem test_add_hl_hl :
    after ({ (at100 [0x29]).setPair .hl 0x8FFF with f := fl 0x80 })
      (fun t => t.pair .hl == 0x1FFE && pf t == 0xB0 && t.lastCycles == 8) = true := by
  decide

/-- V-W7. -/
theorem test_add_hl_bc :
    after ({ ((at100 [0x09]).setPair .hl 0x8A23).setPair .bc 0x0605 with f := fl 0x40 })
      (fun t => t.pair .hl == 0x9028 && pf t == 0x20) = true := by
  decide

/-- V-W9. -/
theorem test_add_sp_e :
    after ({ at100 [0xE8, 0xFF] with sp := 0x0001, f := fl 0x80 })
      (fun t => t.sp == 0x0000 && pf t == 0x30 && t.pc == 0x0102 && t.lastCycles == 16) = true := by
  decide

/-- V-W8. -/
theorem test_add_sp_e_negative :
    after ({ at100 [0xE8, 0x80] with sp := 0x0000 })
      (fun t => t.sp == 0xFF80 && pf t == 0x00) = true := by
  decide

/-! ## Control transfer (2.4) -/

/-- V-T1. -/
theorem test_jp :
    after (at100 [0xC3, 0x34, 0x12])
      (fun t => t.pc == 0x1234 && t.lastCycles == 20 && t.lastExtra == 4) = true := by
  decide

/-- V-T3. -/
theorem test_jp_nz_not_taken :
    after ({ at100 [0xC2, 0x00, 0x02] with f := fl 0x80 })
      (fun t => t.pc == 0x0103 && t.lastCycles == 12 && t.lastExtra == 0) = true := by
  decide

/-- V-T4. -/
theorem test_jp_c :
    after ({ at100 [0xDA, 0x00, 0x02] with f := fl 0x10 })
      (fun t => t.pc == 0x0200 && t.lastCycles == 16) = true := by
  decide

/-- V-T5. -/
theorem test_jp_hl :
    after ((at100 [0xE9]).setPair .hl 0xC000)
      (fun t => t.pc == 0xC000 && t.lastCycles == 8) = true := by
  decide

/-- V-T8. -/
theorem test_jr_wraps_up :
    after ({ place 0xFFF0 [0x18, 0x7F] base with pc := 0xFFF0 })
      (fun t => t.pc == 0x0071 && t.lastCycles == 16) = true := by
  decide

/-- V-T9. -/
theorem test_jr_wraps_down :
    after (place 0x0000 [0x18, 0x80] base)
      (fun t => t.pc == 0xFF82 && t.lastCycles == 16) = true := by
  decide

/-- V-T10. -/
theorem test_jr_z_not_taken :
    after (at100 [0x28, 0x10])
      (fun t => t.pc == 0x0102 && t.lastCycles == 8) = true := by
  decide

/-- V-T11. -/
theorem test_jr_nc :
    after (at100 [0x30, 0x10])
      (fun t => t.pc == 0x0112 && t.lastCycles == 12) = true := by
  decide

/-- V-T12. -/
theorem test_call :
    after ({ at100 [0xCD, 0x00, 0x20] with sp := 0xD000 })
      (fun t => t.pc == 0x2000 && t.sp == 0xCFFE && t.byteAt 0xCFFF == 0x01 && t.byteAt 0xCFFE == 0x03 &&
        t.lastCycles == 36) = true := by
  decide

/-- V-T13. -/
theorem test_call_z_not_taken :
    after ({ at100 [0xCC, 0x00, 0x20] with sp := 0xD000 })
      (fun t => t.pc == 0x0103 && t.sp == 0xD000 && t.byteAt 0xCFFF == 0x00 && t.lastCycles == 12) = true := by
  decide

/-- V-T16. -/
theorem test_ret :
    after (place 0xCFFE [0x0C, 0x00] ({ at100 [0xC9] with sp := 0xCFFE }))
      (fun t => t.pc == 0x000C && t.sp == 0xD000 && t.lastCycles == 28) = true := by
  decide

/-- V-T17. -/
theorem test_ret_nc_not_taken :
    after ({ at100 [0xD0] with sp := 0xCFFE, f := fl 0x10 })
      (fun t => t.pc == 0x0101 && t.sp == 0xCFFE && t.lastCycles == 8) = true := by
  decide

/-- V-T19. -/
theorem test_reti :
    after (place 0xCFFE [0x34, 0x12] ({ at100 [0xD9] with sp := 0xCFFE }))
      (fun t => t.pc == 0x1234 && t.sp == 0xD000 && t.ime == true && t.lastCycles == 28) = true := by
  decide

/-- V-T20. -/
theorem test_rst_pushes_its_own_address :
    after ({ at100 [0xFF] with sp := 0xFFFE })
      (fun t => t.pc == 0x0038 && t.sp == 0xFFFC && t.byteAt 0xFFFD == 0x01 && t.byteAt 0xFFFC == 0x00 &&
        t.lastCycles == 16 && t.lastExtra == 0) = true := by
  decide

/-! ## Single-byte operations and low power (2.5) -/

/-- V-M1. -/
theorem test_nop :
    after ({ at100 [0x00] with f := fl 0xF0 })
      (fun t => t.pc == 0x0101 && pf t == 0xF0 && t.lastCycles == 4) = true := by
  decide

/-- V-M2. -/
theorem test_halt :
    after (at100 [0x76])
      (fun t => t.pc == 0x0101 && t.halted == true && t.lastCycles == 4) = true := by
  decide

/-- V-M3. -/
theorem test_stop_two_bytes :
    after (at100 [0x10, 0x00])
      (fun t => t.pc == 0x0102 && t.stopped == true && t.lastCycles == 4) = true := by
  decide

/-- V-M4. -/
theorem test_stop_one_byte :
    after ({ at100 [0x10] with cfg := { base.cfg with stopLen := .one } })
      (fun t => t.pc == 0x0101 && t.stopped == true) = true := by
  decide

/-- V-M5. -/
theorem test_di :
    after ({ at100 [0xF3] with ime := true })
      (fun t => t.ime == false && t.pc == 0x0101 && t.lastCycles == 4) = true := by
  decide

/-- V-M6. -/
theorem test_ei :
    after (at100 [0xFB])
      (fun t => t.ime == true && t.pc == 0x0101 && t.lastCycles == 4) = true := by
  decide

/-- V-M8, second step. -/
theorem test_halted_step_counts_table :
    after ({ at100 [0x00] with halted := true })
      (fun t => t.pc == 0x0100 && t.halted == true && t.lastCycles == 4) = true := by
  decide

/-- V-M9, second step. -/
theorem test_halted_step_counts_zero :
    after ({ at100 [0x00] with halted := true, cfg := { base.cfg with haltCycles := .zero } })
      (fun t => t.pc == 0x0100 && t.lastCycles == 0) = true := by
  decide

/-- V-M11, second step. -/
theorem test_halted_step_decodes : stops ({ at100 [0xD3] with halted := true }) (.decode 0xD3 false) = true := by
  decide

/-- V-M12. -/
theorem test_stopped_step_decodes_prefixed :
    stops ({ at100 [0xCB, 0x37] with halted := true, stopped := true }) (.decode 0x37 true) = true := by
  decide

/-! ## Prefixed (2.6) -/

/-- V-P1. -/
theorem test_stub_table : stops (at100 [0xCB, 0x37]) (.decode 0x37 true) = true := by
  decide

/-- V-P3. -/
theorem test_stub_table_wraps :
    stops ({ place 0xFFFF [0xCB, 0x37] base with pc := 0xFFFF }) (.decode 0x37 true) = true := by
  decide

/-- V-P4. -/
theorem test_rlc :
    after ({ full100 [0xCB, 0x00] with b := 0x85 })
      (fun t => t.b == 0x0B && pf t == 0x10 && t.pc == 0x0102 && t.lastCycles == 8) = true := by
  decide

/-- V-P6. -/
theorem test_rrc :
    after ({ full100 [0xCB, 0x09] with c := 0x01 })
      (fun t => t.c == 0x80 && pf t == 0x10) = true := by
  decide

/-- V-P7. -/
theorem test_rl :
    after ({ full100 [0xCB, 0x15] with l := 0x80 })
      (fun t => t.l == 0x00 && pf t == 0x90) = true := by
  decide

/-- V-P8. -/
theorem test_rr :
    after ({ full100 [0xCB, 0x1F] with a := 0x01, f := fl 0x10 })
      (fun t => t.a == 0x80 && pf t == 0x10) = true := by
  decide

/-- V-P9. -/
theorem test_sla :
    after ({ full100 [0xCB, 0x22] with d := 0xC1 })
      (fun t => t.d == 0x82 && pf t == 0x10) = true := by
  decide

/-- V-P10. -/
theorem test_sra :
    after ({ full100 [0xCB, 0x2B] with e := 0x8A })
      (fun t => t.e == 0xC5 && pf t == 0x00) = true := by
  decide

/-- V-P12. -/
theorem test_swap :
    after ({ full100 [0xCB, 0x37] with a := 0xF0, f := fl 0x10 })
      (fun t => t.a == 0x0F && pf t == 0x00) = true := by
  decide

/-- V-P14. -/
theorem test_srl_atHL :
    after (hlC000 (full100 [0xCB, 0x3E]) 0xFF)
      (fun t => t.byteAt 0xC000 == 0x7F && pf t == 0x10 && t.pc == 0x0102 && t.lastCycles == 16) = true := by
  decide

/-- V-P16. -/
theorem test_bit :
    after ({ full100 [0xCB, 0x7C] with h := 0x80, f := fl 0x10 })
      (fun t => t.h == 0x80 && pf t == 0x30) = true := by
  decide

/-- V-P18. -/
theorem test_bit_atHL :
    after ({ hlC000 (full100 [0xCB, 0x5E]) 0x08 with f := fl 0x10 })
      (fun t => t.byteAt 0xC000 == 0x08 && pf t == 0x30 && t.lastCycles == 12) = true := by
  decide

/-- V-P19. -/
theorem test_res_atHL :
    after ({ hlC000 (full100 [0xCB, 0x86]) 0xFF with f := fl 0xF0 })
      (fun t => t.byteAt 0xC000 == 0xFE && pf t == 0xF0 && t.lastCycles == 16) = true := by
  decide

/-- V-P21. -/
theorem test_set :
    after ({ full100 [0xCB, 0xDF] with a := 0x00 })
      (fun t => t.a == 0x08 && pf t == 0x00) = true := by
  decide

/-- V-P23. -/
theorem test_prefixed_wraps :
    after ({ place 0xFFFF [0xCB, 0x37] baseFull with pc := 0xFFFF, a := 0x12 })
      (fun t => t.a == 0x21 && t.pc == 0x0001) = true := by
  decide

/-! ## Fatal conditions (2.8) -/

/-- V-F1. -/
theorem test_illegal : stops (at100 [0xD3]) (.decode 0xD3 false) = true := by
  decide

/-- V-F2. -/
theorem test_fetch_past_the_store : stops ({ baseShort with pc := 0xFFFF }) (.mem 0xFFFF .fetch) = true := by
  decide

/-- V-F3. -/
theorem test_read_past_the_store : stops (short100 [0xFA, 0xFF, 0xFF]) (.mem 0xFFFF .read) = true := by
  decide

/-- V-F4. -/
theorem test_push_past_the_store : stops ({ short100 [0xC5] with sp := 0x0000 }) (.mem 0xFFFF .write) = true := by
  decide

/-- V-F5. -/
theorem test_push_at_the_bottom :
    after ({ short100 [0xC5] with sp := 0x0002, b := 0x01, c := 0x02 })
      (fun t => t.byteAt 0x0001 == 0x01 && t.byteAt 0x0000 == 0x02 && t.sp == 0x0000 && t.lastCycles == 16) = true := by
  decide

/-- V-F7. -/
theorem test_immediate_past_the_store :
    stops ({ place 0xFFFE [0x3E] baseShort with pc := 0xFFFE }) (.mem 0xFFFF .fetch) = true := by
  decide

/-- V-F8. -/
theorem test_undefined_register : stops (place 0 [0x78] baseBare) (.undef (.reg .b)) = true := by
  decide

/-- V-F11. -/
theorem test_undefined_address : stops (place 0 [0x7E] baseBare) (.undef (.reg .h)) = true := by
  decide

/-- V-F15, second step. -/
theorem test_undefined_flag : stops ((place 0 [0x20, 0xFE] baseBare).setReg .a 0x00) (.undef (.flag .z)) = true := by
  decide

/-- note to V-F10. -/
theorem test_undefined_af :
    stops ((place 0 [0xF5] baseBare).setReg .a 0x00 |>.setFlags ⟨none, some false, some false, some true⟩)
      (.undef (.flag .z)) = true := by
  decide

/-- V-F14. -/
theorem test_nothing_read :
    after (place 0 [0x00] baseBare)
      (fun t => t.pc == 0x0001 && t.lastCycles == 4) = true := by
  decide

/-! ## Decoding: every row of spec/opcode_table.json, by its high digit -/

/-- The decoder on the sixteen bytes of one high digit. -/
def decodeRowOf (x : Nat) : List (Option Instr) :=
  (List.range 16).map fun y => decode .stub (BitVec.ofNat 8 (x * 16 + y)) false

theorem test_decode_row_0 :
    decodeRowOf 0x0 = [some .nop, some .ld_BC_nn, some .ld_atBC_A, some .inc_BC, some .inc_B, some .dec_B, some .ld_B_n,
      some .rlca, some .ld_atNN_SP, some .add_HL_BC, some .ld_A_atBC, some .dec_BC, some .inc_C, some .dec_C, some .ld_C_n,
      some .rrca] := by
  decide

theorem test_decode_row_1 :
    decodeRowOf 0x1 = [some .stop, some .ld_DE_nn, some .ld_atDE_A, some .inc_DE, some .inc_D, some .dec_D, some .ld_D_n,
      some .rla, some .jr_e, some .add_HL_DE, some .ld_A_atDE, some .dec_DE, some .inc_E, some .dec_E, some .ld_E_n,
      some .rra] := by
  decide

theorem test_decode_row_2 :
    decodeRowOf 0x2 = [some .jr_NZ_e, some .ld_HL_nn, some .ld_atHLi_A, some .inc_HL, some .inc_H, some .dec_H,
      some .ld_H_n, some .daa, some .jr_Z_e, some .add_HL_HL, some .ld_A_atHLi, some .dec_HL, some .inc_L, some .dec_L,
      some .ld_L_n, some .cpl] := by
  decide

theorem test_decode_row_3 :
    decodeRowOf 0x3 = [some .jr_NC_e, some .ld_SP_nn, some .ld_atHLd_A, some .inc_SP, some .inc_atHL, some .dec_atHL,
      some .ld_atHL_n, some .scf, some .jr_C_e, some .add_HL_SP, some .ld_A_atHLd, some .dec_SP, some .inc_A, some .dec_A,
      some .ld_A_n, some .ccf] := by
  decide

theorem test_decode_row_4 :
    decodeRowOf 0x4 = [some .ld_B_B, some .ld_B_C, some .ld_B_D, some .ld_B_E, some .ld_B_H, some .ld_B_L, some .ld_B_atHL,
      some .ld_B_A, some .ld_C_B, some .ld_C_C, some .ld_C_D, some .ld_C_E, some .ld_C_H, some .ld_C_L, some .ld_C_atHL,
      some .ld_C_A] := by
  decide

theorem test_decode_row_5 :
    decodeRowOf 0x5 = [some .ld_D_B, some .ld_D_C, some .ld_D_D, some .ld_D_E, some .ld_D_H, some .ld_D_L, some .ld_D_atHL,
      some .ld_D_A, some .ld_E_B, some .ld_E_C, some .ld_E_D, some .ld_E_E, some .ld_E_H, some .ld_E_L, some .ld_E_atHL,
      some .ld_E_A] := by
  decide

theorem test_decode_row_6 :
    decodeRowOf 0x6 = [some .ld_H_B, some .ld_H_C, some .ld_H_D, some .ld_H_E, some .ld_H_H, some .ld_H_L, some .ld_H_atHL,
      some .ld_H_A, some .ld_L_B, some .ld_L_C, some .ld_L_D, some .ld_L_E, some .ld_L_H, some .ld_L_L, some .ld_L_atHL,
      some .ld_L_A] := by
  decide

theorem test_decode_row_7 :
    decodeRowOf 0x7 = [some .ld_atHL_B, some .ld_atHL_C, some .ld_atHL_D, some .ld_atHL_E, some .ld_atHL_H,
      some .ld_atHL_L, some .halt, some .ld_atHL_A, some .ld_A_B, some .ld_A_C, some .ld_A_D, some .ld_A_E, some .ld_A_H,
      some .ld_A_L, some .ld_A_atHL, some .ld_A_A] := by
  decide

theorem test_decode_row_8 :
    decodeRowOf 0x8 = [some .add_A_B, some .add_A_C, some .add_A_D, some .add_A_E, some .add_A_H, some .add_A_L,
      some .add_A_atHL, some .add_A_A, some .adc_A_B, some .adc_A_C, some .adc_A_D, some .adc_A_E, some .adc_A_H,
      some .adc_A_L, some .adc_A_atHL, some .adc_A_A] := by
  decide

theorem test_decode_row_9 :
    decodeRowOf 0x9 = [some .sub_A_B, some .sub_A_C, some .sub_A_D, some .sub_A_E, some .sub_A_H, some .sub_A_L,
      some .sub_A_atHL, some .sub_A_A, some .sbc_A_B, some .sbc_A_C, some .sbc_A_D, some .sbc_A_E, some .sbc_A_H,
      some .sbc_A_L, some .sbc_A_atHL, some .sbc_A_A] := by
  decide

theorem test_decode_row_A :
    decodeRowOf 0xA = [some .and_A_B, some .and_A_C, some .and_A_D, some .and_A_E, some .and_A_H, some .and_A_L,
      some .and_A_atHL, some .and_A_A, some .xor_A_B, some .xor_A_C, some .xor_A_D, some .xor_A_E, some .xor_A_H,
      some .xor_A_L, some .xor_A_atHL, some .xor_A_A] := by
  decide

theorem test_decode_row_B :
    decodeRowOf 0xB = [some .or_A_B, some .or_A_C, some .or_A_D, some .or_A_E, some .or_A_H, some .or_A_L, some .or_A_atHL,
      some .or_A_A, some .cp_A_B, some .cp_A_C, some .cp_A_D, some .cp_A_E, some .cp_A_H, some .cp_A_L, some .cp_A_atHL,
      some .cp_A_A] := by
  decide

theorem test_decode_row_C :
    decodeRowOf 0xC = [some .ret_NZ, some .pop_BC, some .jp_NZ_nn, some .jp_nn, some .call_NZ_nn, some .push_BC,
      some .add_A_n, some .rst_00h, some .ret_Z, some .ret, some .jp_Z_nn, none, some .call_Z_nn, some .call_nn,
      some .adc_A_n, some .rst_08h] := by
  decide

theorem test_decode_row_D :
    decodeRowOf 0xD = [some .ret_NC, some .pop_DE, some .jp_NC_nn, none, some .call_NC_nn, some .push_DE, some .sub_A_n,
      some .rst_10h, some .ret_C, some .reti, some .jp_C_nn, none, some .call_C_nn, none, some .sbc_A_n, some .rst_18h] := by
  decide

theorem test_decode_row_E :
    decodeRowOf 0xE = [some .ldh_atN_A, some .pop_HL, some .ld_atC_A, none, none, some .push_HL, some .and_A_n,
      some .rst_20h, some .add_SP_e, some .jp_HL, some .ld_atNN_A, none, none, none, some .xor_A_n, some .rst_28h] := by
  decide

theorem test_decode_row_F :
    decodeRowOf 0xF = [some .ldh_A_atN, some .pop_AF, some .ld_A_atC, some .di, none, some .push_AF, some .or_A_n,
      some .rst_30h, some .ld_HL_SPe, some .ld_SP_HL, some .ld_A_atNN, some .ei, none, none, some .cp_A_n, some .rst_38h] := by
  decide

/-- The prefixed rows: code[7:6], code[5:3] and code[2:0] written out (30_encoding.md R73, 45_prefixed.md R154). -/
theorem test_decode_prefixed :
    decodeBytes .full [0xCB, 0b00000000] = .ok (.rlc (.reg .b)) ∧
    decodeBytes .full [0xCB, 0b00001001] = .ok (.rrc (.reg .c)) ∧
    decodeBytes .full [0xCB, 0b00010010] = .ok (.rl (.reg .d)) ∧
    decodeBytes .full [0xCB, 0b00011011] = .ok (.rr (.reg .e)) ∧
    decodeBytes .full [0xCB, 0b00100100] = .ok (.sla (.reg .h)) ∧
    decodeBytes .full [0xCB, 0b00101101] = .ok (.sra (.reg .l)) ∧
    decodeBytes .full [0xCB, 0b00110110] = .ok (.swap .indHL) ∧
    decodeBytes .full [0xCB, 0b00111111] = .ok (.srl (.reg .a)) ∧
    decodeBytes .full [0xCB, 0b01011110] = .ok (.bit 3 .indHL) ∧
    decodeBytes .full [0xCB, 0b10111111] = .ok (.res 7 (.reg .a)) ∧
    decodeBytes .full [0xCB, 0b11000001] = .ok (.set 0 (.reg .c)) := by
  decide

/-- R76, R77, R78: the bytes that are no instruction, and the failures by name. -/
theorem test_decode_failures :
    decodeBytes .stub [0xE3] = .error (.illegalOpcode 0xE3) ∧ decodeBytes .stub [0xCB, 0x37] = .error (.stubTable 0x37) ∧
    decode .full 0xCB false = none ∧ decode .stub 0x37 true = none := by
  decide

/-- The table's word of an instruction runs as the first instruction after reset; a prefixed one too. -/
theorem test_table_words :
    decodeTableWord 8 0x3E = some .ld_A_n ∧ decodeTableWord 8 0xD3 = none ∧
    decodeTableWord 16 0x7CCB = some (.bit 7 (.reg .h)) ∧
    after (State.reset.withFetchWord 8 0x3E) (fun t => t.a == 0x00 && t.pc == 0x0002) = true ∧
    after (State.reset.withFetchWord 16 0x7CCB) (fun t => pf t == 0xA0 && t.pc == 0x0002) = true := by
  decide

/-! ## Ill-formed terms (R73, R76, R77) -/

theorem test_wf_illegal : Instr.wf (.illegal 0xD3) = false := by decide
theorem test_wf_escape : Instr.wf .prefixCb = false := by decide
theorem test_wf_rlc : Instr.wf (.rlc .imm8) = false := by decide
theorem test_wf_rrc : Instr.wf (.rrc .indBC) = false := by decide
theorem test_wf_rl : Instr.wf (.rl .indDE) = false := by decide
theorem test_wf_rr : Instr.wf (.rr .indHLInc) = false := by decide
theorem test_wf_sla : Instr.wf (.sla .indHLDec) = false := by decide
theorem test_wf_sra : Instr.wf (.sra .abs16) = false := by decide
theorem test_wf_swap : Instr.wf (.swap .highImm) = false := by decide
theorem test_wf_srl : Instr.wf (.srl .highC) = false := by decide
theorem test_wf_bit : Instr.wf (.bit 0 .imm8) = false := by decide
theorem test_wf_res : Instr.wf (.res 7 .imm8) = false := by decide
theorem test_wf_set : Instr.wf (.set 3 .abs16) = false := by decide

/-- R73: the combinations of LD8, ALU, INC and DEC that are not admitted. -/
theorem test_admitted :
    (Op.ld8 .indHL .indHL).admitted = false ∧ (Op.ld8 (.reg .b) .indBC).admitted = false ∧
    (Op.ld8 .imm8 (.reg .a)).admitted = false ∧ (Op.ld8 .indBC (.reg .b)).admitted = false ∧
    (Op.ld8 .indHL .imm8).admitted = true ∧ (Op.ld8 .highC (.reg .a)).admitted = true ∧
    (Op.alu .add .indBC).admitted = false ∧ (Op.alu .cp .imm8).admitted = true ∧
    (Op.inc8 .imm8).admitted = false ∧ (Op.dec8 .indHL).admitted = true ∧ (Op.cb .swap .abs16).admitted = false := by
  decide

/-- S7 and R182: NOP from reset after boot, running and halted; the host's clear lets the core run on (R181). -/
theorem test_boot :
    after (State.boot base.cfg [(0x0000, 0x00)]) (fun t => t.pc == 0x0001 && t.lastCycles == 4) = true ∧
    after (State.boot { base.cfg with resetRun := .haltedStopped } [(0x0000, 0x3C)]) (fun t => t.a == 0x01) = true ∧
    after (State.resetWith { base.cfg with resetRun := .haltedStopped })
      (fun t => t.pc == 0x0000 && t.lastCycles == 4 && t.stopped) = true ∧
    (State.boot base.cfg [(0x0000, 0x01), (0x0000, 0x02)]).byteAt 0x0000 = 0x02 := by
  decide

/-- The host's read (R32): the byte of a cell, and `none` where the short store has no cell (assumption log 16). -/
theorem test_host_read :
    (at100 [0x3E]).hostRead 0x0100 = some 0x3E ∧ base.hostRead 0xFFFF = some 0x00 ∧ baseShort.hostRead 0xFFFF = none := by
  decide

/-- V-D9: the frame budget of the reference values. -/
theorem test_frame_budget : frameBudget ⟨4194304, 16742⟩ = 70221 := by decide

/-- S3 and S4: the flags codec and the AF view. -/
theorem test_flags_codec :
    encodeFlags (decodeFlags 0xA5) = 0xA0 ∧ (base.setStk .af 0xABCD).stk .af = 0xABC0 ∧ (base.setPair .hl 0x00FF).l = 0xFF := by
  decide

/-! ## Witnesses: states and operands that meet the hypotheses of each obligation, clause by clause

Where a statement says `Answers`, the witness shows its hypotheses and a state in which every check passes; where a check can
fail, a state in which it does. -/

/-- A halted core. -/
def halted0 : State := { base with halted := true }

/-- SP where the pushes and pops of the short store meet its missing cell. -/
def shortSp (sp : Word) : State := { baseShort with sp := sp }

/-- A short store whose registers all hold 0xFF, so that every address formed from them is 0xFFFF. -/
def shortTop : State :=
  { baseShort with a := 0xFF, b := 0xFF, c := 0xFF, d := 0xFF, e := 0xFF, h := 0xFF, l := 0xFF, pc := 0x0100 }

theorem witness_ResetStackAndRunState :
    base.cfg.resetRun = .running ∧ ({ base.cfg with resetRun := .haltedStopped } : Config).resetRun = .haltedStopped := by
  decide

theorem witness_ResetByDecision : base.cfg.resetRegs = .zero ∧ baseBare.cfg.resetRegs = .undefined := by
  decide

theorem witness_BootPlacesImage :
    (State.boot base.cfg [(0xFFFF, 0x12)]).mapped 0xFFFF = true ∧
    (State.boot baseShort.cfg [(0xFFFF, 0x12)]).mapped 0xFFFE = true := by
  decide

theorem witness_MemoryReadAfterWrite :
    base.mem.wf = true ∧ base.cfg.memSize = .full ∧ base.mapped 0xFFFF = true ∧
    baseShort.mem.wf = true ∧ baseShort.cfg.memSize = .short ∧ baseShort.mapped 0xFFFE = true ∧
    baseShort.mapped 0xFFFF = false := by
  decide

theorem witness_WordsLittleEndian :
    base.mem.wf = true ∧ base.mapped 0xFFFF = true ∧ base.mapped (0xFFFF + 1) = true := by
  decide

theorem witness_StackLifo :
    base.mapped (base.sp - 1) = true ∧ base.mapped base.sp = true ∧ base.mem.wf = true ∧
    (∃ t, push16 0x1234 { base with sp := 0x0001 } = .ok t) ∧
    ∃ t, pushAll [0xAA, 0xBB] { base with sp := 0x0001 } = .ok t :=
  ⟨by decide, by decide, by decide, ⟨_, rfl⟩, ⟨_, rfl⟩⟩

theorem witness_DecodeEncodeRoundTrip :
    Instr.wf (.bit 7 .indHL) = true ∧ Instr.wf .rst_38h = true ∧ Instr.wf (.set 0 (.reg .a)) = true := by
  decide

theorem witness_DecodedIsEncoded :
    decodeBytes .stub [0x00] = .ok .nop ∧ decodeBytes .full [0xCB, 0xFF, 0x00] = .ok (.set 7 (.reg .a)) := by
  decide

theorem witness_StepRunsDecoded :
    (base.mapped base.pc = true ∧ base.byteAt base.pc ≠ 0xCB ∧
      decode base.cfg.prefixTable (base.byteAt base.pc) false = some .nop ∧ goesOn (exec .nop base) = true) ∧
    ((full100 [0xCB, 0x06]).mapped 0x0100 = true ∧ (full100 [0xCB, 0x06]).byteAt 0x0100 = 0xCB ∧
      (full100 [0xCB, 0x06]).mapped 0x0101 = true ∧
      decode .full ((full100 [0xCB, 0x06]).byteAt 0x0101) true = some (.rlc .indHL)) ∧
    exec .ld_A_B baseBare = .fault (.undef (.reg .b)) :=
  ⟨by decide, by decide, rfl⟩

theorem witness_StepFetchAndDecodeFaults :
    ({ baseShort with pc := 0xFFFF } : State).mapped 0xFFFF = false ∧
    (({ place 0xFFFE [0xCB] baseShort with pc := 0xFFFE } : State).byteAt 0xFFFE = 0xCB ∧
      ({ place 0xFFFE [0xCB] baseShort with pc := 0xFFFE } : State).mapped (0xFFFE + 1) = false) ∧
    ((at100 [0xCB, 0x37]).byteAt 0x0100 = 0xCB ∧ (at100 [0xCB, 0x37]).mapped 0x0101 = true ∧
      (at100 [0xCB, 0x37]).cfg.prefixTable = .stub) ∧
    (at100 [0xFD]).byteAt 0x0100 ∈ [(0xD3 : Byte), 0xDB, 0xDD, 0xE3, 0xE4, 0xEB, 0xEC, 0xED, 0xF4, 0xFC, 0xFD] ∧
    step (at100 [0xCB, 0x37]) = .fault (.decode 0x37 true) ∧ step (at100 [0xFD]) = .fault (.decode 0xFD false) :=
  ⟨by decide, by decide, by decide, by decide, rfl, rfl⟩

theorem witness_HaltedExecuteIsNoOp : halted0.running = false ∧ Instr.op .inc_A = some (.inc8 (.reg .a)) := by
  decide

theorem witness_LowPowerSteps :
    base.running = true ∧ halted0.running = false ∧ goesOn (step halted0) = true ∧ halted0.mapped halted0.pc = true ∧
    halted0.byteAt halted0.pc ≠ 0xCB ∧ decode halted0.cfg.prefixTable (halted0.byteAt halted0.pc) false = some .nop := by
  decide

theorem witness_StepCycles :
    (base.running = true ∧ base.byteAt base.pc = 0x00 ∧ goesOn (step base) = true) ∧
    ((full100 [0xCB, 0x00]).running = true ∧ goesOn (step (full100 [0xCB, 0x00])) = true) ∧
    (halted0.running = false ∧ halted0.cfg.haltCycles = .table ∧ goesOn (step halted0) = true) ∧
    ({ halted0 with cfg := { halted0.cfg with haltCycles := .zero } } : State).cfg.haltCycles = .zero ∧
    goesOn (step { halted0 with cfg := { halted0.cfg with haltCycles := .zero } }) = true := by
  decide

theorem witness_BranchPenalty :
    base.running = true ∧ Instr.op .jp_NZ_nn = some (.jp .nz .imm16) ∧ goesOn (exec .jp_NZ_nn base) = true ∧
    Instr.op .ret_Z = some (.ret .z) ∧ goesOn (exec .ret_Z base) = true ∧
    Instr.op .nop = some .nop ∧ goesOn (exec .nop base) = true := by
  decide

/-- The opcodes of the control transfers: the unconditional ones, then JP, JR, CALL and RET under NZ, Z, NC and C. -/
def transfers : List Byte :=
  [0xC3, 0x18, 0xE9, 0xCD, 0xC9, 0xD9, 0xC7, 0xFF] ++ [0xC2, 0xCA, 0xD2, 0xDA] ++ [0x20, 0x28, 0x30, 0x38] ++
    [0xC4, 0xCC, 0xD4, 0xDC] ++ [0xC0, 0xC8, 0xD0, 0xD8]

/-- Each opcode with every flag clear and with every flag set. -/
theorem witness_ReferenceTotals :
    base.cfg.cycles = .reference ∧
    ∀ b ∈ transfers, ∀ f ∈ [fl 0x00, fl 0xF0],
      ({ at100 [b] with f := f } : State).running = true ∧ ({ at100 [b] with f := f } : State).byteAt 0x0100 = b ∧
        goesOn (step { at100 [b] with f := f }) = true := by
  decide

theorem witness_FrameBudget : base.cfg.cycles = .reference ∧ ∃ acc t, frameStep ⟨1000000, 5⟩ 2 base = .returned acc t :=
  ⟨by decide, ⟨_, _, rfl⟩⟩

theorem witness_FrameWhileHalted :
    halted0.running = false ∧ halted0.mapped halted0.pc = true ∧ halted0.byteAt halted0.pc = 0x00 ∧
    halted0.cfg.haltCycles = .table ∧ (frameBudget ⟨1000000, 5⟩ + 3) / 4 ≤ 2 ∧ 0 < frameBudget ⟨1000000, 5⟩ ∧
    ({ halted0 with cfg := { halted0.cfg with haltCycles := .zero } } : State).cfg.haltCycles = .zero := by
  decide

theorem witness_OperandFault :
    base.running = true ∧ (Op.ld8 .imm8 .imm8).admitted = false ∧
    Instr.op (.rlc .imm8) = some (.cb .rlc .imm8) ∧ (Op.cb .rlc .imm8).admitted = false ∧
    decode .full 0x00 true = some (.rlc (.reg .b)) := by
  decide

theorem witness_MemoryFaultOnlyAtTop :
    step { baseShort with pc := 0xFFFF } = .fault (.mem 0xFFFF .fetch) ∧
    step (short100 [0xFA, 0xFF, 0xFF]) = .fault (.mem 0xFFFF .read) ∧
    step { short100 [0xC5] with sp := 0x0000 } = .fault (.mem 0xFFFF .write) :=
  ⟨rfl, rfl, rfl⟩

theorem witness_UndefinedReads :
    step (place 0 [0x78] baseBare) = .fault (.undef (.reg .b)) ∧ base.allDefined ∧
    step (place 0 [0x20, 0xFE] baseBare) = .fault (.undef (.flag .z)) ∧
    goesOn (step base) = true ∧ base.holds (.flag .c) = true :=
  ⟨rfl, rfl, rfl, by decide, by decide⟩

theorem witness_EveryInstructionCompletes :
    base.running = true ∧ base.cfg.memSize = .full ∧ base.allDefined ∧ Instr.wf .push_AF = true ∧
    baseFull.running = true ∧ baseFull.cfg.memSize = .full ∧ baseFull.allDefined ∧ baseFull.cfg.prefixTable = .full :=
  ⟨by decide, by decide, rfl, by decide, by decide, by decide, rfl, by decide⟩

theorem witness_StepKeepsWellFormed :
    (at100 [0x36, 0x44]).wf = true ∧ goesOn (step (at100 [0x36, 0x44])) = true ∧ baseShort.wf = true := by
  decide

theorem witness_TimingHasNoEffect :
    base.eraseTiming = ({ base with lastCycles := 7, cfg := { base.cfg with cycles := .free } } : State).eraseTiming ∧
    base ≠ { base with lastCycles := 7, cfg := { base.cfg with cycles := .free } } := by
  decide

theorem witness_ImeHasNoEffect :
    base.eraseIme = ({ base with ime := true } : State).eraseIme ∧ base ≠ { base with ime := true } ∧
    base.running = true ∧ Instr.op .ei = some .ei ∧ goesOn (exec .ei base) = true ∧ goesOn (exec .reti base) = true ∧
    goesOn (exec .di base) = true ∧ goesOn (exec .nop base) = true := by
  decide

theorem witness_RunFlagOwners :
    Instr.op .halt = some .halt ∧ goesOn (exec .halt base) = true ∧ goesOn (exec .halt halted0) = true ∧
    goesOn (exec .stop base) = true ∧ base.running = true := by
  decide

theorem witness_LdRegister :
    base.running = true ∧ Instr.op .ld_H_B = some (.ld8 (.reg .h) (.reg .b)) ∧ firstFault [base.regCheck .b] = none ∧
    Instr.op .ld_A_n = some (.ld8 (.reg .a) .imm8) ∧ firstFault [base.memCheck .fetch (base.pc + 1)] = none ∧
    Instr.op .ld_L_atHL = some (.ld8 (.reg .l) .indHL) ∧
    firstFault [base.regCheck .h, base.regCheck .l, base.memCheck .read (join base.h base.l)] = none ∧
    firstFault [baseBare.regCheck .b] = some (.undef (.reg .b)) ∧
    firstFault [shortTop.regCheck .h, shortTop.regCheck .l, shortTop.memCheck .read (join shortTop.h shortTop.l)] =
      some (.mem 0xFFFF .read) := by
  decide

theorem witness_LdAccumulator :
    base.running = true ∧
    firstFault [base.regCheck .b, base.regCheck .c, base.memCheck .read (join base.b base.c)] = none ∧
    firstFault [base.regCheck .d, base.regCheck .e, base.memCheck .read (join base.d base.e)] = none ∧
    firstFault [base.regCheck .h, base.regCheck .l, base.memCheck .read (join base.h base.l)] = none ∧
    firstFault (base.imm16Checks ++ [base.memCheck .read (base.wordAt (base.pc + 1))]) = none ∧
    firstFault [base.memCheck .fetch (base.pc + 1), base.memCheck .read (join 0xFF (base.byteAt (base.pc + 1)))] = none ∧
    firstFault [base.regCheck .c, base.memCheck .read (join 0xFF base.c)] = none ∧
    firstFault [shortTop.regCheck .c, shortTop.memCheck .read (join 0xFF shortTop.c)] = some (.mem 0xFFFF .read) := by
  decide

theorem witness_ByteStores :
    base.running = true ∧ Instr.op .ld_atHL_L = some (.ld8 .indHL (.reg .l)) ∧
    firstFault [base.regCheck .h, base.regCheck .l, base.regCheck .l, base.memCheck .write (join base.h base.l)] = none ∧
    firstFault [base.memCheck .fetch (base.pc + 1), base.regCheck .h, base.regCheck .l,
      base.memCheck .write (join base.h base.l)] = none ∧
    firstFault [base.regCheck .b, base.regCheck .c, base.regCheck .a, base.memCheck .write (join base.b base.c)] = none ∧
    firstFault [base.regCheck .d, base.regCheck .e, base.regCheck .a, base.memCheck .write (join base.d base.e)] = none ∧
    firstFault (base.imm16Checks ++ [base.regCheck .a, base.memCheck .write (base.wordAt (base.pc + 1))]) = none ∧
    firstFault [base.memCheck .fetch (base.pc + 1), base.regCheck .a,
      base.memCheck .write (join 0xFF (base.byteAt (base.pc + 1)))] = none ∧
    firstFault [base.regCheck .c, base.regCheck .a, base.memCheck .write (join 0xFF base.c)] = none ∧
    firstFault [shortTop.regCheck .b, shortTop.regCheck .c, shortTop.regCheck .a,
      shortTop.memCheck .write (join shortTop.b shortTop.c)] = some (.mem 0xFFFF .write) := by
  decide

theorem witness_LdPair :
    base.running = true ∧ Instr.op .ld_SP_nn = some (.ld16 (.imm .sp)) ∧ Instr.op .ld_HL_nn = some (.ld16 (.imm .hl)) ∧
    firstFault [base.memCheck .fetch (base.pc + 1), base.memCheck .fetch (base.pc + 2)] = none ∧
    firstFault [base.regCheck .h, base.regCheck .l] = none ∧
    firstFault [baseBare.regCheck .h, baseBare.regCheck .l] = some (.undef (.reg .h)) := by
  decide

theorem witness_LdStackPointerStore :
    base.running = true ∧
    firstFault [base.memCheck .fetch (base.pc + 1), base.memCheck .fetch (base.pc + 2),
      base.memCheck .write (base.wordAt (base.pc + 1)), base.memCheck .write (base.wordAt (base.pc + 1) + 1)] = none ∧
    firstFault [(short100 [0x08, 0xFE, 0xFF]).memCheck .write ((short100 [0x08, 0xFE, 0xFF]).wordAt 0x0101),
      (short100 [0x08, 0xFE, 0xFF]).memCheck .write ((short100 [0x08, 0xFE, 0xFF]).wordAt 0x0101 + 1)] =
      some (.mem 0xFFFF .write) := by
  decide

/-- The offset at both ends of each range: 0x7F, 0x80 and 0xFF. -/
theorem witness_StackPointerOffset :
    (at100 [0xE8, 0x7F]).running = true ∧
    (127 : Nat) = ((at100 [0xE8, 0x7F]).byteAt (0x0100 + 1)).toNat ∧ (127 : Int) = (if 127 < 128 then 127 else 127 - 256) ∧
    (128 : Nat) = ((at100 [0xE8, 0x80]).byteAt (0x0100 + 1)).toNat ∧ (-128 : Int) = (if 128 < 128 then 128 else 128 - 256) ∧
    (255 : Nat) = ((at100 [0xE8, 0xFF]).byteAt (0x0100 + 1)).toNat ∧ (-1 : Int) = (if 255 < 128 then 255 else 255 - 256) ∧
    firstFault [(at100 [0xE8, 0x7F]).memCheck .fetch (0x0100 + 1)] = none := by
  decide

theorem witness_PushPop :
    base.running = true ∧ Instr.op .push_BC = some (.push .bc) ∧ Instr.op .push_AF = some (.push .af) ∧
    Instr.op .pop_AF = some (.pop .af) ∧ Instr.op .pop_HL = some (.pop .hl) ∧
    firstFault [base.memCheck .write (base.sp - 1), base.memCheck .write (base.sp - 2)] = none ∧
    firstFault [base.regCheck .a, base.flagCheck .z, base.flagCheck .n, base.flagCheck .h, base.flagCheck .c] = none ∧
    firstFault [base.memCheck .read base.sp, base.memCheck .read (base.sp + 1)] = none ∧
    firstFault [(shortSp 0).memCheck .write (0 - 1), (shortSp 0).memCheck .write (0 - 2)] = some (.mem 0xFFFF .write) ∧
    firstFault [(shortSp 0xFFFE).memCheck .read 0xFFFE, (shortSp 0xFFFE).memCheck .read (0xFFFE + 1)] =
      some (.mem 0xFFFF .read) := by
  decide

theorem witness_AddAndAdc :
    base.running = true ∧ Instr.op .add_A_B = some (.alu .add (.reg .b)) ∧ Instr.op .adc_A_atHL = some (.alu .adc .indHL) ∧
    Instr.op .adc_A_n = some (.alu .adc .imm8) ∧ firstFault (base.readChecks (.reg .b) ++ [base.regCheck .a]) = none ∧
    firstFault (base.readChecks .indHL ++ [base.regCheck .a, base.flagCheck .c]) = none ∧
    firstFault (base.readChecks .imm8 ++ [base.regCheck .a, base.flagCheck .c]) = none ∧
    firstFault (shortTop.readChecks .indHL ++ [shortTop.regCheck .a]) = some (.mem 0xFFFF .read) ∧
    firstFault ((baseBare.setReg .a 0).readChecks (.reg .a) ++ [(baseBare.setReg .a 0).regCheck .a,
      (baseBare.setReg .a 0).flagCheck .c]) = some (.undef (.flag .c)) := by
  decide

theorem witness_SubSbcAndCp :
    base.running = true ∧ Instr.op .sub_A_B = some (.alu .sub (.reg .b)) ∧ Instr.op .sbc_A_n = some (.alu .sbc .imm8) ∧
    Instr.op .cp_A_atHL = some (.alu .cp .indHL) ∧ firstFault (base.readChecks (.reg .b) ++ [base.regCheck .a]) = none ∧
    firstFault (base.readChecks .imm8 ++ [base.regCheck .a, base.flagCheck .c]) = none ∧
    firstFault (base.readChecks .indHL ++ [base.regCheck .a]) = none ∧
    firstFault (baseBare.readChecks (.reg .b) ++ [baseBare.regCheck .a]) = some (.undef (.reg .b)) := by
  decide

theorem witness_Logic :
    base.running = true ∧ Instr.op .and_A_B = some (.alu .and (.reg .b)) ∧ Instr.op .xor_A_n = some (.alu .xor .imm8) ∧
    Instr.op .or_A_atHL = some (.alu .or .indHL) ∧ firstFault (base.readChecks (.reg .b) ++ [base.regCheck .a]) = none ∧
    firstFault (base.readChecks .imm8 ++ [base.regCheck .a]) = none ∧
    firstFault (base.readChecks .indHL ++ [base.regCheck .a]) = none ∧
    firstFault (baseBare.readChecks (.reg .a) ++ [baseBare.regCheck .a]) = some (.undef (.reg .a)) := by
  decide

theorem witness_IncDecByte :
    base.running = true ∧ Instr.op .inc_B = some (.inc8 (.reg .b)) ∧ Instr.op .inc_atHL = some (.inc8 .indHL) ∧
    Instr.op .dec_A = some (.dec8 (.reg .a)) ∧ Instr.op .dec_atHL = some (.dec8 .indHL) ∧
    firstFault (base.readChecks (.reg .b)) = none ∧ firstFault (base.readChecks .indHL) = none ∧
    firstFault (shortTop.readChecks .indHL) = some (.mem 0xFFFF .read) := by
  decide

/-- Both branches: 0x9A after an addition, 0x4B with H after a subtraction. -/
theorem witness_DecimalAdjust :
    base.running = true ∧ (0x9A : Nat) = ({ base with a := 0x9A } : State).a.toNat ∧
    (0x00 : Nat) = (0x9A + 0x60 + 6) % 256 ∧ (0x4B : Nat) = ({ base with a := 0x4B, f := fl 0x60 } : State).a.toNat ∧
    (0x45 : Nat) = (0x4B + 512 - 6) % 256 ∧
    firstFault [base.regCheck .a, base.flagCheck .c, base.flagCheck .n, base.flagCheck .h] = none ∧
    firstFault [(baseBare.setReg .a 0).regCheck .a, (baseBare.setReg .a 0).flagCheck .c] = some (.undef (.flag .c)) := by
  decide

theorem witness_DecimalAddition :
    let s : State := { base with a := 0x99, b := 0x99 }
    s.running = true ∧ s.allDefined ∧ s.a.toNat / 16 ≤ 9 ∧ s.a.toNat % 16 ≤ 9 ∧ s.b.toNat / 16 ≤ 9 ∧ s.b.toNat % 16 ≤ 9 :=
  ⟨by decide, rfl, by decide, by decide, by decide, by decide⟩

theorem witness_FlagOperations :
    base.running = true ∧ firstFault [base.regCheck .a] = none ∧ firstFault [base.flagCheck .c] = none ∧
    firstFault [baseBare.flagCheck .c] = some (.undef (.flag .c)) := by
  decide

theorem witness_AccumulatorRotates :
    base.running = true ∧ (0xFF : Nat) = ({ base with a := 0xFF } : State).a.toNat ∧
    firstFault [base.regCheck .a, base.flagCheck .c] = none ∧ firstFault [base.regCheck .a] = none ∧
    firstFault [baseBare.regCheck .a] = some (.undef (.reg .a)) := by
  decide

theorem witness_IncDecPair :
    base.running = true ∧ Instr.op .inc_SP = some (.inc16 .sp) ∧ Instr.op .dec_DE = some (.dec16 .de) ∧
    firstFault (base.pairChecks .sp) = none ∧ firstFault (base.pairChecks .de) = none ∧
    firstFault (baseBare.pairChecks .de) = some (.undef (.reg .d)) := by
  decide

theorem witness_AddPair :
    base.running = true ∧ Instr.op .add_HL_SP = some (.add16 .sp) ∧ Instr.op .add_HL_BC = some (.add16 .bc) ∧
    firstFault ([base.regCheck .h, base.regCheck .l] ++ base.pairChecks .bc) = none ∧
    firstFault ([baseBare.regCheck .h, baseBare.regCheck .l] ++ baseBare.pairChecks .sp) = some (.undef (.reg .h)) := by
  decide

theorem witness_Jumps :
    base.running = true ∧ Instr.op .jp_nn = some (.jp .always .imm16) ∧ Instr.op .jp_NZ_nn = some (.jp .nz .imm16) ∧
    Instr.op .jr_e = some (.jp .always .rel8) ∧ Instr.op .jr_C_e = some (.jp .c .rel8) ∧
    base.cond .nz = true ∧ base.cond .c = false ∧
    firstFault ([base.memCheck .fetch (base.pc + 1), base.memCheck .fetch (base.pc + 2)] ++ base.condChecks .nz) = none ∧
    firstFault ([base.memCheck .fetch (base.pc + 1)] ++ base.condChecks .c) = none ∧
    firstFault [base.regCheck .h, base.regCheck .l] = none ∧
    firstFault ([baseBare.memCheck .fetch (baseBare.pc + 1)] ++ baseBare.condChecks .c) = some (.undef (.flag .c)) := by
  decide

theorem witness_Calls :
    base.running = true ∧ Instr.op .call_nn = some (.call .always) ∧ Instr.op .call_NZ_nn = some (.call .nz) ∧
    Instr.op .call_C_nn = some (.call .c) ∧ base.cond .nz = true ∧ base.cond .c = false ∧
    firstFault ([base.memCheck .fetch (base.pc + 1), base.memCheck .fetch (base.pc + 2)] ++ base.condChecks .nz ++
      [base.memCheck .write (base.sp - 1), base.memCheck .write (base.sp - 2)]) = none ∧
    firstFault [(shortSp 0).memCheck .write (0 - 1), (shortSp 0).memCheck .write (0 - 2)] = some (.mem 0xFFFF .write) := by
  decide

theorem witness_Returns :
    base.running = true ∧ Instr.op .ret = some (.ret .always) ∧ Instr.op .reti = some (.ret .alwaysIe) ∧
    Instr.op .ret_Z = some (.ret .z) ∧ base.cond .always = true ∧ base.cond .z = false ∧
    firstFault (base.condChecks .always ++ [base.memCheck .read base.sp, base.memCheck .read (base.sp + 1)]) = none ∧
    firstFault [(shortSp 0xFFFE).memCheck .read 0xFFFE, (shortSp 0xFFFE).memCheck .read (0xFFFE + 1)] =
      some (.mem 0xFFFF .read) := by
  decide

theorem witness_Restarts :
    base.running = true ∧ firstFault [base.memCheck .write (base.sp - 1), base.memCheck .write (base.sp - 2)] = none ∧
    firstFault [(shortSp 1).memCheck .write (1 - 1), (shortSp 1).memCheck .write (1 - 2)] = some (.mem 0xFFFF .write) := by
  decide

/-- The unconditional CALL, a conditional one that is taken, and the first and the last RST. -/
theorem witness_CallThenReturn :
    base.running = true ∧ base.mem.wf = true ∧
    (Instr.op .call_nn = some (.call .always) ∧ base.cond .always = true ∧ goesOn (exec .call_nn base) = true) ∧
    (Instr.op .call_NC_nn = some (.call .nc) ∧ base.cond .nc = true ∧ goesOn (exec .call_NC_nn base) = true) ∧
    (Instr.op .rst_00h = some (.rst 0x0000) ∧ goesOn (exec .rst_00h base) = true) ∧
    Instr.op .rst_38h = some (.rst 0x0038) ∧ goesOn (exec .rst_38h base) = true := by
  decide

theorem witness_SingleByteOperations : base.running = true := by
  decide

theorem witness_PrefixedRotates :
    base.running = true ∧ Loc8.isReadModifyWrite .indHL = true ∧ Loc8.isReadModifyWrite (.reg .a) = true ∧
    firstFault (base.readChecks .indHL ++ [base.flagCheck .c]) = none ∧ firstFault (base.readChecks (.reg .a)) = none ∧
    firstFault (shortTop.readChecks .indHL) = some (.mem 0xFFFF .read) ∧
    firstFault ((baseBare.setReg .a 0).readChecks (.reg .a) ++ [(baseBare.setReg .a 0).flagCheck .c]) =
      some (.undef (.flag .c)) := by
  decide

theorem witness_PrefixedBits :
    base.running = true ∧ Loc8.isReadModifyWrite .indHL = true ∧ firstFault (base.readChecks .indHL) = none ∧
    firstFault (baseBare.readChecks (.reg .l)) = some (.undef (.reg .l)) := by
  decide

theorem witness_IllegalAndEscapeRows :
    ({ baseShort with pc := 0xFFFE } : State).mapped (0xFFFE + 1) = false ∧
    (base.mapped (base.pc + 1) = true ∧ base.cfg.prefixTable = .stub) ∧
    baseFull.mapped (baseFull.pc + 1) = true ∧ baseFull.cfg.prefixTable = .full := by
  decide

theorem witness_FrameRegisters :
    Instr.op .ld_A_B = some (.ld8 (.reg .a) (.reg .b)) ∧ goesOn (exec .ld_A_B base) = true ∧
    (Op.ld8 (.reg .a) (.reg .b)).writesReg .b = false ∧ (Op.ld8 (.reg .a) (.reg .b)).writesSp = false := by
  decide

theorem witness_FrameFlags :
    Instr.op .inc_B = some (.inc8 (.reg .b)) ∧ goesOn (exec .inc_B base) = true ∧ (Op.inc8 (.reg .b)).touches .c = false := by
  decide

theorem witness_FrameMemory :
    (Instr.op .cp_A_n = some (.alu .cp .imm8) ∧ goesOn (exec .cp_A_n base) = true ∧ (Op.alu .cp .imm8).stores = false) ∧
    (Instr.op .ld_atHLi_A = some (.ld8 .indHLInc (.reg .a)) ∧ goesOn (exec .ld_atHLi_A base) = true ∧
      locPlace .indHLInc base = .ok (.mem 0x0000)) ∧
    (Instr.op .inc_atHL = some (.inc8 .indHL) ∧ goesOn (exec .inc_atHL base) = true ∧
      locPlace .indHL base = .ok (.mem 0x0000)) ∧
    (Instr.op (.set 0 .indHL) = some (.cb (.set 0) .indHL) ∧ goesOn (exec (.set 0 .indHL) base) = true) ∧
    (Instr.op .ld_atNN_SP = some (.ld16 .nnSP) ∧ goesOn (exec .ld_atNN_SP base) = true ∧
      fetchImm16 base = .ok 0x0000) ∧
    (goesOn (exec .push_BC base) = true ∧ goesOn (exec .call_nn base) = true ∧ goesOn (exec .rst_00h base) = true) := by
  decide

end Sys2Proof.Tests
end

section
/-! Two runs whose states are alike (Laws/Noninterference.lean): the outcomes of `step`, and the outcomes compared by what
an erasure leaves. -/

namespace Sys2Proof.Machine

/-- Outcomes that go on in states with equal erasures are the same under the erasure. -/
theorem sameUnder_of_outcomes {erase : State → State} {o o' : Host.Outcome State Fault Refusal}
    (h : Alike.Outcomes (fun s s' => erase s = erase s') o o') : SameUnder erase o o' := by
  cases o <;> cases o' <;> exact h

/-- Alike states step alike, if recording the cycles of the step keeps them alike. -/
theorem Alike.step {R : State → State → Prop} (hR : Alike R)
    (hc : ∀ {u u' : State}, R u u' → ∀ run code p,
      R { u with lastCycles := stepCycles u.cfg run code p u.lastExtra }
        { u' with lastCycles := stepCycles u'.cfg run code p u'.lastExtra })
    {s s' : State} (h : R s s') : Outcomes R (Machine.step s) (Machine.step s') := by
  rw [Machine.step, Machine.step, hR.fetchInstr h, hR.running h]
  split
  · next i code p _ =>
    have hx := hR.exec h i
    revert hx
    cases Machine.exec i s <;> cases Machine.exec i s' <;> intro hx
    case next.next u u' => exact hc hx _ code p
    all_goals exact hx
  · rfl

end Sys2Proof.Machine
end

section
/-! The interrupt-enable flag (10_state.md R27): nothing reads it, and EI, DI and RETI alone write it. -/

namespace Sys2Proof.Machine

/-- Two states are equal but for ime exactly when one is the other with its ime set. -/
theorem eraseIme_eq_iff {s s' : State} : s.eraseIme = s'.eraseIme ↔ ∃ b, s' = { s with ime := b } := by
  constructor
  · intro h
    have hs : ({ s'.eraseIme with ime := s'.ime } : State) = { s.eraseIme with ime := s'.ime } := by rw [h]
    exact ⟨s'.ime, hs⟩
  · rintro ⟨b, rfl⟩
    rfl

/-- No instruction reads ime, and no update moves it into anything else. -/
theorem alike_eraseIme : Alike fun s s' => s.eraseIme = s'.eraseIme := by
  constructor <;> intro s s' h <;> obtain ⟨b, rfl⟩ := eraseIme_eq_iff.mp h
  case reg => intro r; cases r <;> rfl
  case setReg => intro r v; cases r <;> rfl
  all_goals intros; rfl

/-- An update allowed to an instruction that does not write ime leaves ime as it was. -/
theorem armClosed_ime {o : Op} (ho : writesIme o = false) (b : Bool) : ArmClosed o fun t => t.ime = b where
  setReg s r v _ hs := by rw [State.setReg_ime, hs]
  setFlags _ _ _ hs := hs
  setSp _ _ _ hs := hs
  setByte _ _ _ _ _ hs := hs
  setIme _ _ h _ := by rw [ho] at h; cases h
  setHalted _ _ hs := hs
  setStopped _ _ hs := hs

/-- Among the instructions only EI, RETI and DI have a value that writes ime. -/
theorem writesIme_op_eq_false {i : Instr} {o : Op} (ho : i.op = some o) (hei : i ≠ .ei) (hreti : i ≠ .reti)
    (hdi : i ≠ .di) : writesIme o = false := by
  cases i
  case ei => exact absurd rfl hei
  case reti => exact absurd rfl hreti
  case di => exact absurd rfl hdi
  all_goals cases ho <;> rfl

/-- Every instruction but EI, RETI and DI leaves ime as it was, in any run state. -/
theorem exec_ime_of_ne {i : Instr} {o : Op} (ho : i.op = some o) (hei : i ≠ .ei) (hreti : i ≠ .reti) (hdi : i ≠ .di)
    {s t : State} (h : exec i s = .next t) : t.ime = s.ime := by
  rw [exec_eq_execute ho] at h
  exact execute_keeps (armClosed_ime (writesIme_op_eq_false ho hei hreti hdi) s.ime) (fun _ _ _ hs => hs) h rfl

/-- What a running instruction leaves is its arm's result, committed. -/
theorem exec_eq_next_of_running {i : Instr} {o : Op} (ho : i.op = some o) {s t : State} (hs : s.running = true)
    (h : exec i s = .next t) : ∃ r, arm o s = .ok r ∧ t = r.state.commit r.nextPc r.extra := by
  rw [exec_eq_execute ho] at h
  rcases execute_eq_next h with ⟨hn, _⟩ | ⟨_, _, hr⟩
  · rw [hs] at hn
    cases hn
  · exact hr

/-- A computation that yields `a` gives nothing else. -/
theorem Yields.eq_of_ok {α : Type} {x : Except Fault α} {cs : List (Option Fault)} {a b : α} (hx : Yields x cs a)
    (h : x = .ok b) : b = a := by
  rcases hc : firstFault cs with _ | f
  · rw [hx.1 hc] at h
    cases h
    rfl
  · rw [hx.2 f hc] at h
    cases h

/-- A running EI sets ime (R152). -/
theorem exec_ei_ime {s t : State} (hs : s.running = true) (h : exec .ei s = .next t) : t.ime = true := by
  obtain ⟨r, hr, rfl⟩ := exec_eq_next_of_running rfl hs h
  cases hr
  rfl

/-- A running DI clears ime (R151). -/
theorem exec_di_ime {s t : State} (hs : s.running = true) (h : exec .di s = .next t) : t.ime = false := by
  obtain ⟨r, hr, rfl⟩ := exec_eq_next_of_running rfl hs h
  cases hr
  rfl

/-- A running RETI, the return under ALWAYS_IE, sets ime (R139, R146). -/
theorem exec_reti_ime {s t : State} (hs : s.running = true) (h : exec .reti s = .next t) : t.ime = true := by
  obtain ⟨r, hr, rfl⟩ := exec_eq_next_of_running rfl hs h
  rw [(yields_armRet .alwaysIe s).eq_of_ok hr]
  rfl

/-- Settles O29: alike states answer alike because equality but for ime is a relation every update keeps; ime is kept by
every update allowed to an instruction other than its three writers, whose arms set it. -/
theorem imeHasNoEffect : Obligations.ImeHasNoEffect := by
  refine ⟨fun s s' h => ⟨fun i => sameUnder_of_outcomes (alike_eraseIme.exec h i), ?_⟩, ?_⟩
  · refine sameUnder_of_outcomes (alike_eraseIme.step ?_ h)
    intro u u' hu run code p
    obtain ⟨b, rfl⟩ := eraseIme_eq_iff.mp hu
    rfl
  · intro i o s t ho hs h
    refine ⟨?_, ?_, fun hei hreti hdi => exec_ime_of_ne ho hei hreti hdi h⟩
    · rintro (rfl | rfl)
      · exact exec_ei_ime hs h
      · exact exec_reti_ime hs h
    · rintro rfl
      exact exec_di_ime hs h

end Sys2Proof.Machine
end

section
/-! Reset and the run flags (10_state.md R30, R36, R39; 30_encoding.md R82). -/

namespace Sys2Proof.Machine

/-- P_RESET_RUN sets both run flags after reset (R39). -/
theorem resetWith_runFlags (cfg : Config) :
    (State.resetWith cfg).halted = resetHalted cfg.resetRun ∧ (State.resetWith cfg).stopped = resetHalted cfg.resetRun :=
  ⟨rfl, rfl⟩

/-- Settles O1: both run flags are the one value that P_RESET_RUN selects. -/
theorem resetStackAndRunState : Obligations.ResetStackAndRunState := by
  intro cfg
  obtain ⟨hh, hst⟩ := resetWith_runFlags cfg
  refine ⟨rfl, fun h => ?_, fun h => ?_, rfl⟩
  · rw [hh, hst, h]
    exact ⟨rfl, rfl⟩
  · rw [hh, hst, h]
    exact ⟨rfl, rfl⟩

/-- The core runs when neither run flag is set (R30). -/
theorem State.running_iff (s : State) : s.running = true ↔ s.halted = false ∧ s.stopped = false := by
  simp [State.running]

/-- Settles O15: the guard of execute commits the PC it found and no extra cycles. -/
theorem haltedExecuteIsNoOp : Obligations.HaltedExecuteIsNoOp := by
  refine ⟨State.running_iff, fun x y => ?_, fun o s hs => execute_of_not_running o hs, fun i o s ho hs => ?_⟩
  · exact ⟨{ State.reset with halted := x, stopped := y }, rfl, rfl⟩
  · rw [exec_eq_execute ho]
    exact execute_of_not_running o hs

end Sys2Proof.Machine
end

section
/-! The flags codec (10_state.md R20) and the 16-bit views (R21 to R25), in numbers. -/

namespace Sys2Proof.Machine

/-- Clearing the low nibble, in numbers. -/
theorem toNat_and_clearLowNibble {w : Nat} (x : BitVec w) :
    (x &&& BitVec.allOnes w <<< 4).toNat = x.toNat / 16 * 16 := by
  have := x.isLt
  rw [← BitVec.shiftLeft_ushiftRight, BitVec.toNat_shiftLeft, BitVec.toNat_ushiftRight, Nat.shiftLeft_eq,
    Nat.shiftRight_eq_div_pow, Nat.mod_eq_of_lt]
  omega

theorem toNat_and_F0 (b : Byte) : (b &&& 0xF0).toNat = b.toNat / 16 * 16 := toNat_and_clearLowNibble b

theorem toNat_and_FFF0 (w : Word) : (w &&& 0xFFF0).toNat = w.toNat / 16 * 16 := toNat_and_clearLowNibble w

theorem b2n_le_one (x : Bool) : b2n x ≤ 1 := by cases x <;> decide

/-- A bit of a value, in numbers. -/
theorem b2n_getLsbD {w : Nat} (x : BitVec w) (i : Nat) : b2n (x.getLsbD i) = x.toNat / 2 ^ i % 2 := by
  rw [BitVec.getLsbD, ← Nat.toNat_testBit]
  cases x.toNat.testBit i <;> rfl

/-- The packed flags in numbers: the four bits and a zero low nibble, which fit a byte (R20). -/
theorem toNat_encodeFlags (f : Flags) :
    (encodeFlags f).toNat = b2n f.z * 0x80 + b2n f.n * 0x40 + b2n f.h * 0x20 + b2n f.c * 0x10 := by
  have hz := b2n_le_one f.z
  have hn := b2n_le_one f.n
  have hh := b2n_le_one f.h
  have hc := b2n_le_one f.c
  rw [encodeFlags, BitVec.toNat_ofNat, Nat.mod_eq_of_lt]
  omega

@[simp] theorem decodeFlags_encodeFlags (f : Flags) : decodeFlags (encodeFlags f) = f := by
  obtain ⟨z, n, h, c⟩ := f
  revert z n h c
  decide

/-- Packing bits 7 to 4 of a byte gives the byte without its low nibble (R20). -/
@[simp] theorem encodeFlags_decodeFlags (b : Byte) : encodeFlags (decodeFlags b) = b &&& 0xF0 := by
  apply BitVec.eq_of_toNat_eq
  have := b.isLt
  simp only [toNat_encodeFlags, decodeFlags, b2n_getLsbD, toNat_and_F0]
  omega

/-- Settles O4, from the packed flags in numbers and the two round trips. -/
theorem flagsCodec : Obligations.FlagsCodec :=
  ⟨toNat_encodeFlags, fun _ => rfl, decodeFlags_encodeFlags, encodeFlags_decodeFlags⟩

/-- A word is its two halves, in numbers (R15). -/
theorem toNat_eq_hi8_lo8 (w : Word) : w.toNat = (hi8 w).toNat * 256 + (lo8 w).toNat := by
  rw [toNat_hi8, toNat_lo8]
  omega

/-- Clearing the low nibble of the low half clears it in the word. -/
theorem join_hi8_and_F0 (w : Word) : join (hi8 w) (lo8 w &&& 0xF0) = w &&& 0xFFF0 := by
  apply BitVec.eq_of_toNat_eq
  rw [toNat_join, toNat_hi8, toNat_and_F0, toNat_lo8, toNat_and_FFF0]
  omega

/-- A write of AF writes A and all four flags (R24). -/
theorem State.setStk_af (s : State) (w : Word) :
    (s.setStk .af w).a = hi8 w ∧ (s.setStk .af w).f = decodeFlags (lo8 w) := ⟨rfl, rfl⟩

/-- AF reads back what was written without its low nibble (R24). -/
theorem State.stk_af_setStk_af (s : State) (w : Word) : (s.setStk .af w).stk .af = w &&& 0xFFF0 := by
  obtain ⟨ha, hf⟩ := s.setStk_af w
  rw [State.stk, ha, hf, encodeFlags_decodeFlags, join_hi8_and_F0]

/-- Settles O5: the views and writes are the model's definitions; BC, DE and HL read back by the halves of a pair, and AF by
the flags codec. -/
theorem pairViews : Obligations.PairViews := by
  intro s w
  obtain ⟨ha, hf⟩ := s.setStk_af w
  refine ⟨rfl, rfl, rfl, rfl, rfl, rfl, rfl, ha, hf, s.pair_setPair .bc w, s.pair_setPair .de w, s.pair_setPair .hl w,
    s.stk_af_setStk_af w, fun r => ?_, toNat_eq_hi8_lo8 w⟩
  cases r <;> rfl

end Sys2Proof.Machine
end

section
/-! What the decoder gives is an admitted value (30_encoding.md R73 to R78), the faults of a step's fetch and execution (R84,
R85), and the operand fault, which no step raises (60_exceptions.md R168). -/

namespace Sys2Proof.Machine

/-! ## The decoder gives well-formed rows -/

theorem wf_iff {i : Instr} : i.wf = true ↔ ∃ o, i.op = some o ∧ o.admitted = true := by
  unfold Instr.wf
  cases i.op <;> simp

/-- Every entry of the r8 table is a register or (HL) (R63). -/
theorem r8_isReadModifyWrite (k : Nat) : (r8 k).isReadModifyWrite = true := by
  have hentry : ∀ t ∈ r8Table, t.isReadModifyWrite = true := by decide
  rw [r8, List.getD_eq_getElem?_getD]
  cases hk : r8Table[k]? with
  | none => rfl
  | some t => exact hentry t (List.mem_of_getElem? hk)

theorem cbShiftRow_op (y : Nat) (t : Loc8) : ∃ op, (cbShiftRow y t).op = some (.cb op t) := by
  match y with
  | 0 | 1 | 2 | 3 | 4 | 5 | 6 | 7 | _ + 8 => exact ⟨_, rfl⟩

/-- Every code of the FULL table is an operation of the prefixed space on the operand of its z field (R154). -/
theorem decodeCb_op (code : Byte) : ∃ op, (decodeCb code).op = some (.cb op (r8 (fieldZ code))) := by
  unfold decodeCb
  split
  · exact cbShiftRow_op _ _
  · split
    · exact ⟨_, rfl⟩
    · split <;> exact ⟨_, rfl⟩

theorem decodeCb_wf (code : Byte) : (decodeCb code).wf = true := by
  obtain ⟨op, hop⟩ := decodeCb_op code
  exact wf_iff.mpr ⟨_, hop, r8_isReadModifyWrite _⟩

/-- What the decoder gives is well-formed: the non-prefixed map is filtered by it, and the FULL table holds nothing else. -/
theorem wf_of_decode {tbl : PrefixTable} {code : Byte} {prefixed : Bool} {i : Instr}
    (h : decode tbl code prefixed = some i) : i.wf = true := by
  unfold decode decodeNamed at h
  split at h
  · cases tbl with
    | stub => cases h
    | full =>
      cases h
      exact decodeCb_wf code
  · split at h
    · next hwf =>
      cases h
      exact hwf
    · split at h <;> cases h

/-! ## The faults of fetch and step -/

theorem lookup_eq_ok {code c : Byte} {prefixed p : Bool} {s : State} {i : Instr}
    (h : lookup code prefixed s = .ok (i, c, p)) :
    decode s.cfg.prefixTable code prefixed = some i ∧ c = code ∧ p = prefixed := by
  unfold lookup at h
  split at h <;> cases h
  exact ⟨‹_›, rfl, rfl⟩

theorem lookup_eq_error {code : Byte} {prefixed : Bool} {s : State} {f : Fault}
    (h : lookup code prefixed s = .error f) : f = .decode code prefixed := by
  unfold lookup at h
  split at h <;> cases h
  rfl

theorem memRead_eq_error {k : AccessKind} {a : Word} {s : State} {f : Fault} (h : memRead k a s = .error f) :
    f = .mem a k ∧ s.mapped a = false := by
  unfold memRead at h
  split at h <;> cases h
  exact ⟨rfl, Bool.eq_false_iff.mpr ‹_›⟩

/-- The row that a step runs is what the decoder gives for the code and flag it counts with (R85). -/
theorem decode_of_fetchInstr {s : State} {i : Instr} {code : Byte} {prefixed : Bool}
    (h : fetchInstr s = .ok (i, code, prefixed)) : decode s.cfg.prefixTable code prefixed = some i := by
  obtain ⟨b0, _, h⟩ := bind_eq_ok.mp h
  split at h
  · obtain ⟨c, _, h⟩ := bind_eq_ok.mp h
    obtain ⟨hd, rfl, rfl⟩ := lookup_eq_ok h
    exact hd
  · obtain ⟨hd, rfl, rfl⟩ := lookup_eq_ok h
    exact hd

/-- Fetch raises FATAL_MEM at an address with no cell, or FATAL_DECODE (R85, R167, R169). -/
theorem fetchInstr_eq_error {s : State} {f : Fault} (h : fetchInstr s = .error f) :
    (∃ a, f = .mem a .fetch ∧ s.mapped a = false) ∨ ∃ code prefixed, f = .decode code prefixed := by
  rcases bind_eq_error.mp h with h | ⟨b0, _, h⟩
  · exact .inl ⟨_, memRead_eq_error h⟩
  · split at h
    · rcases bind_eq_error.mp h with h | ⟨c, _, h⟩
      · exact .inl ⟨_, memRead_eq_error h⟩
      · exact .inr ⟨_, _, lookup_eq_error h⟩
    · exact .inr ⟨_, _, lookup_eq_error h⟩

/-- A step that ends the run was ended by its fetch, or by the row it decoded. -/
theorem step_eq_fault {s : State} {f : Fault} (h : step s = .fault f) :
    fetchInstr s = .error f ∨ ∃ i code prefixed, fetchInstr s = .ok (i, code, prefixed) ∧ exec i s = .fault f := by
  unfold step at h
  split at h
  · next i code prefixed hf =>
    refine .inr ⟨i, code, prefixed, hf, ?_⟩
    cases hx : exec i s <;> rw [hx] at h <;> cases h
    rfl
  · next hf =>
    cases h
    exact .inl hf

/-! ## The operand fault -/

/-- While running, an unadmitted value ends the run before its arm is looked at (R84). -/
theorem execute_of_not_admitted {o : Op} {s : State} (hs : s.running = true) (ha : o.admitted = false) :
    execute o s = .fault (.operand o) := by
  simp [execute, hs, ha]

/-- An admitted value never raises the operand fault. -/
theorem execute_ne_operand {o : Op} (ha : o.admitted = true) (s : State) (o' : Op) :
    execute o s ≠ .fault (.operand o') := by
  intro h
  rcases execute_eq_fault h with ⟨_, hn⟩ | ⟨_, hf, _⟩ | ⟨_, _, hf, _⟩
  · rw [ha] at hn
    cases hn
  · cases hf
  · cases hf

/-- No step raises FATAL_OPERAND (R168): its fetch raises other faults, and the row it decoded has an admitted value. -/
theorem step_ne_operand (s : State) (o : Op) : step s ≠ .fault (.operand o) := by
  intro h
  rcases step_eq_fault h with hf | ⟨i, code, prefixed, hf, hx⟩
  · rcases fetchInstr_eq_error hf with ⟨_, hf, _⟩ | ⟨_, _, hf⟩ <;> cases hf
  · obtain ⟨o', ho, ha⟩ := wf_iff.mp (wf_of_decode (decode_of_fetchInstr hf))
    rw [exec_eq_execute ho] at hx
    exact execute_ne_operand ha s o hx

/-! ## The admitted byte loads and stores -/

theorem isAluSource_iff {t : Loc8} : t.isAluSource = true ↔ (∃ r, t = .reg r) ∨ t = .imm8 ∨ t = .indHL := by
  cases t <;> simp [Loc8.isAluSource]

theorem isAccumulatorOnly_iff {t : Loc8} :
    t.isAccumulatorOnly = true ↔ t ∈ [.indBC, .indDE, .indHLInc, .indHLDec, .abs16, .highImm, .highC] := by
  cases t <;> simp [Loc8.isAccumulatorOnly]

/-- What may be loaded into a register (R73). -/
theorem admittedLd8_reg {r : Reg8} {src : Loc8} :
    admittedLd8 (.reg r) src = true ↔
      (∃ r', src = .reg r') ∨ src = .imm8 ∨ src = .indHL ∨ (r = .a ∧ src.isAccumulatorOnly = true) := by
  simp only [admittedLd8, Bool.or_eq_true, Bool.and_eq_true, beq_iff_eq, isAluSource_iff, or_assoc]

/-- What may be stored at (HL) (R73). -/
theorem admittedLd8_indHL {src : Loc8} : admittedLd8 .indHL src = true ↔ (∃ r, src = .reg r) ∨ src = .imm8 := by
  cases src <;> simp [admittedLd8]

/-- What may be stored through an operand that moves A only (R73). -/
theorem admittedLd8_accumulatorOnly {dst src : Loc8} (h : dst.isAccumulatorOnly = true) :
    admittedLd8 dst src = true ↔ src = .reg .a := by
  cases dst with
  | reg _ | indHL | imm8 => cases h
  | indBC | indDE | indHLInc | indHLDec | abs16 | highImm | highC => exact beq_iff_eq

/-- Settles O22: the guard of execute, the decoder's well-formed rows, the faults of a step, and the LD8 list by its
destination. -/
theorem operandFault : Obligations.OperandFault := by
  refine ⟨fun o s => execute_of_not_admitted, fun i o s ho hs ha => ?_,
    fun tbl code prefixed i h => wf_iff.mp (wf_of_decode h), step_ne_operand, fun d s => ?_⟩
  · rw [exec_eq_execute ho]
    exact execute_of_not_admitted hs ha
  · rw [Op.admitted, ← isAccumulatorOnly_iff, ← isAccumulatorOnly_iff]
    cases d with
    | reg r => simp [admittedLd8_reg, Loc8.isAccumulatorOnly]
    | indHL => simp [admittedLd8_indHL, Loc8.isAccumulatorOnly]
    | imm8 => simp [admittedLd8, Loc8.isAccumulatorOnly]
    | indBC | indDE | indHLInc | indHLDec | abs16 | highImm | highC =>
      rw [admittedLd8_accumulatorOnly rfl]
      simp [Loc8.isAccumulatorOnly]

end Sys2Proof.Machine
end

section
/-! Decode and encode (30_encoding.md R61 to R78, 45_prefixed.md R154): each is the other's inverse,
and the opcode map as a table agrees with the map by fields. -/

namespace Sys2Proof.Machine

/-! ## The fields of a code -/

theorem fieldX_lt (code : Byte) : fieldX code < 4 := by
  exact Nat.div_lt_of_lt_mul code.isLt

theorem fieldY_lt (code : Byte) : fieldY code < 8 := Nat.mod_lt _ (by decide)

theorem fieldZ_lt (code : Byte) : fieldZ code < 8 := Nat.mod_lt _ (by decide)

theorem r8Index_lt (t : Loc8) : r8Index t < 8 := by
  cases t with
  | reg r => cases r <;> decide
  | _ => decide

theorem toNat_cbCode {x y : Nat} (hx : x < 4) (hy : y < 8) (t : Loc8) :
    (cbCode x y t).toNat = x * 64 + y * 8 + r8Index t := by
  have := r8Index_lt t
  simp only [cbCode, BitVec.toNat_ofNat]
  omega

theorem fieldX_cbCode {x y : Nat} (hx : x < 4) (hy : y < 8) (t : Loc8) : fieldX (cbCode x y t) = x := by
  have := r8Index_lt t
  rw [fieldX, toNat_cbCode hx hy]
  omega

theorem fieldY_cbCode {x y : Nat} (hx : x < 4) (hy : y < 8) (t : Loc8) : fieldY (cbCode x y t) = y := by
  have := r8Index_lt t
  rw [fieldY, toNat_cbCode hx hy]
  omega

theorem fieldZ_cbCode {x y : Nat} (hx : x < 4) (hy : y < 8) (t : Loc8) : fieldZ (cbCode x y t) = r8Index t := by
  have := r8Index_lt t
  rw [fieldZ, toNat_cbCode hx hy]
  omega

/-- The r8 table gives an operand back from its index (R63). -/
theorem r8_r8Index {t : Loc8} (ht : t.isReadModifyWrite = true) : r8 (r8Index t) = t := by
  cases t with
  | reg r => cases r <;> rfl
  | indHL => rfl
  | _ => cases ht

/-- The r8 table gives an index back from its operand (R63). -/
theorem r8Index_r8 {k : Nat} (hk : k < 8) : r8Index (r8 k) = k := by
  match k, hk with
  | 0, _ | 1, _ | 2, _ | 3, _ | 4, _ | 5, _ | 6, _ | 7, _ => rfl

/-- A code is the code of its fields (R154). -/
theorem cbCode_fields (code : Byte) : cbCode (fieldX code) (fieldY code) (r8 (fieldZ code)) = code := by
  apply BitVec.eq_of_toNat_eq
  rw [toNat_cbCode (fieldX_lt code) (fieldY_lt code), r8Index_r8 (fieldZ_lt code)]
  simp only [fieldX, fieldY, fieldZ]
  omega

/-! ## The prefixed space -/

/-- The FULL table on a code given by its fields (R154). -/
theorem decodeCb_cbCode {x y : Nat} (hx : x < 4) (hy : y < 8) {t : Loc8} (ht : t.isReadModifyWrite = true) :
    decodeCb (cbCode x y t) =
      if x = 0 then cbShiftRow y t
      else if x = 1 then .bit (Fin.ofNat 8 y) t
      else if x = 2 then .res (Fin.ofNat 8 y) t
      else .set (Fin.ofNat 8 y) t := by
  simp only [decodeCb, fieldX_cbCode hx hy, fieldY_cbCode hx hy, fieldZ_cbCode hx hy, r8_r8Index ht]

theorem encode_cbShiftRow {y : Nat} (hy : y < 8) (t : Loc8) : encode (cbShiftRow y t) = [0xCB, cbCode 0 y t] := by
  match y, hy with
  | 0, _ | 1, _ | 2, _ | 3, _ | 4, _ | 5, _ | 6, _ | 7, _ => rfl

/-- What the FULL table gives for a code is encoded as the escape byte and that code (R61, R154). -/
theorem encode_decodeCb (code : Byte) : encode (decodeCb code) = [0xCB, code] := by
  have hb : (Fin.ofNat 8 (fieldY code)).val = fieldY code := Nat.mod_eq_of_lt (fieldY_lt code)
  have hx := fieldX_lt code
  conv => rhs; rw [← cbCode_fields code]
  unfold decodeCb
  split
  · next h0 => rw [h0, encode_cbShiftRow (fieldY_lt code)]
  · split
    · next h1 => rw [h1, encode, hb]
    · split
      · next h2 => rw [h2, encode, hb]
      · have h3 : fieldX code = 3 := by omega
        rw [h3, encode, hb]

/-- The escape byte leads to the prefixed space (R61, R85). -/
theorem decodeBytes_escape (tbl : PrefixTable) (code : Byte) (rest : List Byte) :
    decodeBytes tbl (0xCB :: code :: rest) = decodeNamed tbl code true := rfl

/-- Any other byte is looked up in the opcode map (R85). -/
theorem decodeBytes_of_ne_escape (tbl : PrefixTable) {b : Byte} (hb : b ≠ 0xCB) (rest : List Byte) :
    decodeBytes tbl (b :: rest) = decodeNamed tbl b false := if_neg hb

/-- An instruction of the prefixed space is the escape byte and the code of its fields, which the
FULL table gives back. -/
theorem decode_encode_of_cb {i : Instr} {op : CbOp} {t : Loc8} (ho : i.op = some (.cb op t))
    (ht : t.isReadModifyWrite = true) (rest : List Byte) : decodeBytes .full (encode i ++ rest) = .ok i := by
  have hcb : ∀ code, decodeNamed .full code true = .ok (decodeCb code) := fun _ => rfl
  have hf : ∀ b : Fin 8, Fin.ofNat 8 b.val = b := Fin.ofNat_val_eq_self
  cases i <;> cases ho <;>
    simp only [encode, List.cons_append, List.nil_append, decodeBytes_escape, hcb, decodeCb_cbCode, ht, hf, Fin.is_lt,
      Nat.reduceLT]
  all_goals rfl

/-- Settles O9: the prefixed rows by the fields of their code, every other row by its own byte. -/
theorem decodeEncodeRoundTrip : Obligations.DecodeEncodeRoundTrip := by
  intro i rest hi
  cases i with
  | illegal code => cases hi
  | prefixCb => cases hi
  | rlc t | rrc t | rl t | rr t | sla t | sra t | swap t | srl t | bit b t | res b t | set b t =>
    exact decode_encode_of_cb rfl hi rest
  | _ => rfl

/-! ## The non-prefixed map -/

/-- Every entry of the opcode map, also an illegal one and the escape, is encoded as the byte it stands at (R75). -/
theorem encode_decodeRow : ∀ b : Byte, encode (decodeRow b) = [b] := by decide

/-- An instruction of the prefixed space is two bytes long. -/
theorem length_encode_of_cb {i : Instr} {op : CbOp} {t : Loc8} (ho : i.op = some (.cb op t)) :
    (encode i).length = 2 := by
  cases i <;> cases ho <;> rfl

/-- What the decoder gives for a code, prefixed or not, is encoded as the byte, after the escape
where it is prefixed. -/
theorem encode_of_decodeNamed {tbl : PrefixTable} {code : Byte} {prefixed : Bool} {i : Instr}
    (h : decodeNamed tbl code prefixed = .ok i) :
    (prefixed = false ∧ encode i = [code]) ∨ (prefixed = true ∧ tbl = .full ∧ encode i = [0xCB, code]) := by
  unfold decodeNamed at h
  cases prefixed with
  | true =>
    cases tbl with
    | stub => cases h
    | full =>
      cases h
      exact .inr ⟨rfl, rfl, encode_decodeCb code⟩
  | false =>
    simp only [Bool.false_eq_true, if_false] at h
    split at h
    · cases h
      exact .inl ⟨rfl, encode_decodeRow code⟩
    · split at h <;> cases h

/-- The decoder reads one code from its bytes: the first byte, or the one after the escape (R61, R85). -/
theorem decodeNamed_of_decodeBytes {tbl : PrefixTable} {bytes : List Byte} {i : Instr}
    (h : decodeBytes tbl bytes = .ok i) :
    (∃ b rest, bytes = b :: rest ∧ decodeNamed tbl b false = .ok i) ∨
      ∃ code rest, bytes = 0xCB :: code :: rest ∧ decodeNamed tbl code true = .ok i := by
  cases bytes with
  | nil => cases h
  | cons b rest =>
    by_cases hb : b = 0xCB
    · subst hb
      cases rest with
      | nil => cases h
      | cons code rest => exact .inr ⟨code, rest, rfl, h⟩
    · rw [decodeBytes_of_ne_escape tbl hb] at h
      exact .inl ⟨b, rest, rfl, h⟩

theorem decode_of_decodeNamed {tbl : PrefixTable} {code : Byte} {prefixed : Bool} {i : Instr}
    (h : decodeNamed tbl code prefixed = .ok i) : decode tbl code prefixed = some i := by
  rw [decode, h]
  rfl

/-- Settles O10: the decoder's answer is encoded as the bytes it was read from, and only FULL gives one of two bytes. -/
theorem decodedIsEncoded : Obligations.DecodedIsEncoded := by
  intro tbl bytes i h
  rcases decodeNamed_of_decodeBytes h with ⟨b, rest, rfl, hd⟩ | ⟨code, rest, rfl, hd⟩
  · obtain ⟨_, he⟩ | ⟨hp, _⟩ := encode_of_decodeNamed hd
    · refine ⟨wf_of_decode (decode_of_decodeNamed hd), ⟨rest, by rw [he]; rfl⟩, fun _ op t ho => ?_⟩
      have hl := length_encode_of_cb ho
      rw [he] at hl
      cases hl
    · cases hp
  · obtain ⟨hp, _⟩ | ⟨_, hfull, he⟩ := encode_of_decodeNamed hd
    · cases hp
    · refine ⟨wf_of_decode (decode_of_decodeNamed hd), ⟨rest, by rw [he]; rfl⟩, fun hstub => ?_⟩
      rw [hfull] at hstub
      cases hstub

/-! ## The two forms of the map -/

/-- The codes that are no instruction: the eleven illegal bytes and the escape (R76, R77). -/
theorem decode_eq_none_iff (tbl : PrefixTable) (b : Byte) : decode tbl b false = none ↔
    b ∈ [0xD3, 0xDB, 0xDD, 0xE3, 0xE4, 0xEB, 0xEC, 0xED, 0xF4, 0xFC, 0xFD, 0xCB] := by
  revert b
  cases tbl <;> decide

/-- The opcode map by table and by fields (R75). -/
theorem decode_bind_op (tbl : PrefixTable) (b : Byte) : (decode tbl b false).bind Instr.op = decodeFields b := by
  revert b
  cases tbl <;> decide

theorem cbShiftRow_op_eq {y : Nat} (hy : y < 8) (t : Loc8) :
    (cbShiftRow y t).op = some (.cb ([CbOp.rlc, .rrc, .rl, .rr, .sla, .sra, .swap, .srl].getD y .srl) t) := by
  match y, hy with
  | 0, _ | 1, _ | 2, _ | 3, _ | 4, _ | 5, _ | 6, _ | 7, _ => rfl

theorem r8_eq_getD {k : Nat} (hk : k < 8) :
    r8 k = [Loc8.reg .b, .reg .c, .reg .d, .reg .e, .reg .h, .reg .l, .indHL, .reg .a].getD k .imm8 := by
  match k, hk with
  | 0, _ | 1, _ | 2, _ | 3, _ | 4, _ | 5, _ | 6, _ | 7, _ => rfl

/-- The FULL table by fields (R154). -/
theorem decodeCb_op_eq (code : Byte) :
    (decodeCb code).op = some (.cb
      (if code.toNat / 64 = 1 then .bit (Fin.ofNat 8 (code.toNat / 8 % 8))
       else if code.toNat / 64 = 2 then .res (Fin.ofNat 8 (code.toNat / 8 % 8))
       else if code.toNat / 64 = 3 then .set (Fin.ofNat 8 (code.toNat / 8 % 8))
       else [CbOp.rlc, .rrc, .rl, .rr, .sla, .sra, .swap, .srl].getD (code.toNat / 8) .srl)
      ([Loc8.reg .b, .reg .c, .reg .d, .reg .e, .reg .h, .reg .l, .indHL, .reg .a].getD (code.toNat % 8) .imm8)) := by
  have hx := fieldX_lt code
  have hz := r8_eq_getD (fieldZ_lt code)
  simp only [fieldX] at hx
  simp only [fieldZ] at hz
  simp only [decodeCb, ← hz, fieldX, fieldY, fieldZ]
  obtain h | h | h | h : code.toNat / 64 = 0 ∨ code.toNat / 64 = 1 ∨ code.toNat / 64 = 2 ∨ code.toNat / 64 = 3 := by
    omega
  · have hy : code.toNat / 8 % 8 = code.toNat / 8 := by omega
    have hlt : code.toNat / 8 < 8 := by omega
    simp [h, hy, cbShiftRow_op_eq hlt]
  all_goals simp [h, Instr.op]

/-- Settles O11: the two maps entry by entry, and the prefixed space by its fields. -/
theorem decoderTables : Obligations.DecoderTables :=
  ⟨decode_bind_op, decode_eq_none_iff, fun _ => rfl, fun code => ⟨decodeCb code, rfl, decodeCb_op_eq code⟩⟩

/-- Settles O12: each word is decoded by evaluation. -/
theorem decodeSampleWords : Obligations.DecodeSampleWords := by
  unfold Obligations.DecodeSampleWords
  decide

end Sys2Proof.Machine
end

section
/-! What every instruction and every step keeps: the parameters, the held registers and flags, and
the well-formed memory (10_state.md R31; 60_exceptions.md R170); that every instruction completes;
and that timing has no effect (70_reset_and_hazards.md R185). -/

namespace Sys2Proof.Machine

/-! ## The closed properties -/

/-- No update writes the parameters. -/
theorem armClosed_cfg (o : Op) (c : Config) : ArmClosed o fun t => t.cfg = c where
  setReg s r v _ hs := by rw [State.setReg_cfg, hs]
  setFlags _ _ _ hs := hs
  setSp _ _ _ hs := hs
  setByte _ _ _ _ _ hs := hs
  setIme _ _ _ hs := hs
  setHalted _ _ hs := hs
  setStopped _ _ hs := hs

/-- A flag that is held stays held after a write of flags (D36). -/
theorem State.holds_setFlags_of_holds {s : State} {n : RegName} (hs : s.holds n = true) (w : FlagWrite) :
    (s.setFlags w).holds n = true := by
  cases n with
  | reg r => rw [State.holds_setFlags_reg, hs]
  | flag g => cases g <;> simp_all [State.holds, State.setFlags, NoValue.get]

/-- No update takes the value of a register or flag away (R170, D36). -/
theorem armClosed_holds (o : Op) (n : RegName) : ArmClosed o fun t => t.holds n = true where
  setReg s r v _ hs := by rw [State.holds_setReg, hs, Bool.or_true]
  setFlags _ w _ hs := State.holds_setFlags_of_holds hs w
  setSp _ _ _ hs := hs
  setByte _ _ _ _ _ hs := hs
  setIme _ _ _ hs := hs
  setHalted _ _ hs := hs
  setStopped _ _ hs := hs

/-- Every update keeps the memory canonical and within the store (R31, R42). -/
theorem armClosed_wf (o : Op) : ArmClosed o fun t => t.wf = true where
  setReg s r v _ hs := by rwa [State.wf, State.setReg_mem, State.setReg_cfg]
  setFlags _ _ _ hs := hs
  setSp _ _ _ hs := hs
  setByte s a v _ ha hs := s.wf_setByte a v hs ha
  setIme _ _ _ hs := hs
  setHalted _ _ hs := hs
  setStopped _ _ hs := hs

theorem exec_cfg {i : Instr} {s t : State} (h : exec i s = .next t) : t.cfg = s.cfg :=
  exec_keeps (fun o => armClosed_cfg o s.cfg) (fun _ _ _ hs => hs) h rfl

theorem exec_holds {i : Instr} {s t : State} {n : RegName} (h : exec i s = .next t) (hs : s.holds n = true) :
    t.holds n = true :=
  exec_keeps (fun o => armClosed_holds o n) (fun _ _ _ hs => hs) h hs

theorem step_cfg {s t : State} (h : step s = .next t) : t.cfg = s.cfg :=
  step_keeps (fun o => armClosed_cfg o s.cfg) (fun _ _ _ hs => hs) (fun _ _ hs => hs) h rfl

theorem step_holds {s t : State} {n : RegName} (h : step s = .next t) (hs : s.holds n = true) : t.holds n = true :=
  step_keeps (fun o => armClosed_holds o n) (fun _ _ _ hs => hs) (fun _ _ hs => hs) h hs

/-- Settles O27: each update keeps the memory well-formed and none writes the parameters. -/
theorem stepKeepsWellFormed : Obligations.StepKeepsWellFormed := fun _ _ hs h =>
  ⟨step_keeps armClosed_wf (fun _ _ _ hs => hs) (fun _ _ hs => hs) h hs, step_cfg h⟩

/-! ## Every instruction completes -/

/-- The marks are what they say of each register and flag. -/
theorem NoValue.eq_of_get {m m' : NoValue} (h : ∀ n, m.get n = m'.get n) : m = m' := by
  cases m
  cases m'
  rw [NoValue.mk.injEq]
  exact ⟨h (.reg .a), h (.reg .b), h (.reg .c), h (.reg .d), h (.reg .e), h (.reg .h), h (.reg .l), h (.flag .z),
    h (.flag .n), h (.flag .h), h (.flag .c)⟩

/-- Under ZERO no mark is set (R37). -/
theorem NoValue.get_atReset_zero (n : RegName) : (NoValue.atReset .zero).get n = false := by
  rcases n with r | g
  · cases r <;> rfl
  · cases g <;> rfl

/-- Every register and flag holds a value exactly when each does (R170). -/
theorem State.allDefined_iff (s : State) : s.allDefined ↔ ∀ n, s.holds n = true := by
  constructor
  · intro h n
    rw [State.holds, h, NoValue.get_atReset_zero, Bool.not_false]
  · intro h
    refine NoValue.eq_of_get fun n => ?_
    rw [NoValue.get_atReset_zero]
    simpa [State.holds] using h n

/-- Under the full size every address has a cell (R3, R43). -/
theorem State.mapped_of_full {s : State} (h : s.cfg.memSize = .full) (a : Word) : s.mapped a = true := by
  rw [State.mapped, h]
  exact decide_eq_true a.isLt

/-- The code after the escape byte, under the full table: an admitted value (R153, R154). -/
theorem fetchPrefixed_of_full {s : State} (hm : s.mapped (s.pc + 1) = true) (ht : s.cfg.prefixTable = .full) :
    ∃ o, fetchPrefixed s = .ok o ∧ (decodeCb (s.byteAt (s.pc + 1))).op = some o ∧ o.admitted = true := by
  obtain ⟨o, ho, ha⟩ := wf_iff.mp (decodeCb_wf (s.byteAt (s.pc + 1)))
  refine ⟨o, ?_, ho, ha⟩
  have hd : (decode .full (s.byteAt (s.pc + 1)) true).bind Instr.op = some o := ho
  rw [fetchPrefixed, memRead_eq_ok.mpr ⟨hm, rfl⟩, ok_bind, ht, hd]
  rfl

/-- A well-formed row, and the escape row under the full table, runs the engine on an admitted value. -/
theorem exec_eq_execute_admitted {i : Instr} {s : State} (hm : ∀ a, s.mapped a = true)
    (hi : i.wf = true ∨ (i = .prefixCb ∧ s.cfg.prefixTable = .full)) :
    ∃ o, exec i s = execute o s ∧ o.admitted = true := by
  rcases hi with hi | ⟨rfl, ht⟩
  · obtain ⟨o, ho, ha⟩ := wf_iff.mp hi
    exact ⟨o, exec_eq_execute ho s, ha⟩
  · obtain ⟨o, hf, _, ha⟩ := fetchPrefixed_of_full (hm _) ht
    exact ⟨o, exec_prefixCb_eq hf, ha⟩

/-- Settles O25: no check of an admitted value can fail in such a state, and every update keeps what is held. -/
theorem everyInstructionCompletes : Obligations.EveryInstructionCompletes := by
  intro i s _ hm hs hi
  have hn := s.allDefined_iff.mp hs
  obtain ⟨o, hx, ha⟩ := exec_eq_execute_admitted (State.mapped_of_full hm) hi
  obtain ⟨t, ht⟩ := execute_completes ha hn (State.mapped_of_full hm)
  have hnext : exec i s = .next t := hx.trans ht
  exact ⟨t, hnext, t.allDefined_iff.mpr fun n => exec_holds hnext (hn n), exec_cfg hnext⟩

/-! ## Timing -/

/-- Two states are equal but for timing exactly when one is the other with its cycle parameters and records set. -/
theorem eraseTiming_eq_iff {s s' : State} : s.eraseTiming = s'.eraseTiming ↔
    ∃ cy hc x n,
      s' = { s with cfg := { s.cfg with cycles := cy, haltCycles := hc }, lastExtra := x, lastCycles := n } := by
  constructor
  · intro h
    refine ⟨s'.cfg.cycles, s'.cfg.haltCycles, s'.lastExtra, s'.lastCycles, ?_⟩
    have hs : ({ s'.eraseTiming with
          cfg := { s'.eraseTiming.cfg with cycles := s'.cfg.cycles, haltCycles := s'.cfg.haltCycles }
          lastExtra := s'.lastExtra, lastCycles := s'.lastCycles } : State) =
        { s.eraseTiming with
          cfg := { s.eraseTiming.cfg with cycles := s'.cfg.cycles, haltCycles := s'.cfg.haltCycles }
          lastExtra := s'.lastExtra, lastCycles := s'.lastCycles } := by rw [h]
    exact hs
  · rintro ⟨_, _, _, _, rfl⟩
    rfl

/-- No instruction reads the timing, and no update moves it into anything else. -/
theorem alike_eraseTiming : Alike fun s s' => s.eraseTiming = s'.eraseTiming := by
  constructor <;> intro s s' h <;> obtain ⟨cy, hc, x, n, rfl⟩ := eraseTiming_eq_iff.mp h
  case reg => intro r; cases r <;> rfl
  case setReg => intro r v; cases r <;> rfl
  all_goals intros; rfl

/-- Settles O28: equality but for timing is a relation that every update and the record of the cycles keep. -/
theorem timingHasNoEffect : Obligations.TimingHasNoEffect := by
  intro s s' h
  refine sameUnder_of_outcomes (alike_eraseTiming.step ?_ h)
  intro u u' hu run code p
  obtain ⟨cy, hc, x, n, rfl⟩ := eraseTiming_eq_iff.mp hu
  rfl

end Sys2Proof.Machine
end

section
/-! Reset, boot and the memory (10_state.md R35 to R43, 70_reset_and_hazards.md R182), words in
memory (20_memory.md R44 to R49) and the stack primitives (40_load.md R112, R113). -/

namespace Sys2Proof.Machine

/-! ## Reset -/

/-- Under UNDEFINED every mark is set (R37). -/
theorem NoValue.get_atReset_undefined (n : RegName) : (NoValue.atReset .undefined).get n = true := by
  rcases n with r | g
  · cases r <;> rfl
  · cases g <;> rfl

theorem reg_resetWith (cfg : Config) (r : Reg8) : (State.resetWith cfg).reg r = 0x00 := by cases r <;> rfl

theorem flag_resetWith (cfg : Config) (g : FlagName) : (State.resetWith cfg).flag g = false := by cases g <;> rfl

theorem holds_resetWith (cfg : Config) (n : RegName) :
    (State.resetWith cfg).holds n = !(NoValue.atReset cfg.resetRegs).get n := rfl

theorem readReg_of_not_holds {r : Reg8} {s : State} (h : s.holds (.reg r) = false) :
    readReg r s = .error (.undef (.reg r)) := by
  simp [readReg, h]

theorem readFlag_of_not_holds {g : FlagName} {s : State} (h : s.holds (.flag g) = false) :
    readFlag g s = .error (.undef (.flag g)) := by
  simp [readFlag, h]

/-- Settles O2: the fields of the reset state, and the marks that P_RESET_REGS leaves. -/
theorem resetByDecision : Obligations.ResetByDecision := by
  intro cfg
  refine ⟨rfl, rfl, fun _ => rfl, fun hz => ?_, fun hu => ?_, rfl, rfl, rfl, rfl⟩
  · have hh : ∀ n, (State.resetWith cfg).holds n = true := fun n => by
      rw [holds_resetWith, hz, NoValue.get_atReset_zero, Bool.not_false]
    exact ⟨fun r => readReg_eq_ok.mpr ⟨hh _, reg_resetWith cfg r⟩,
      fun g => readFlag_eq_ok.mpr ⟨hh _, flag_resetWith cfg g⟩⟩
  · have hh : ∀ n, (State.resetWith cfg).holds n = false := fun n => by
      rw [holds_resetWith, hu, NoValue.get_atReset_undefined, Bool.not_true]
    exact ⟨fun r => readReg_of_not_holds (hh _), fun g => readFlag_of_not_holds (hh _)⟩

/-! ## One cell -/

/-- Under the short size every address but 0xFFFF has a cell (R3, R43). -/
theorem State.mapped_of_short {s : State} (h : s.cfg.memSize = .short) (a : Word) :
    s.mapped a = true ↔ a ≠ 0xFFFF := by
  simp only [State.mapped, h, memBytes, decide_eq_true_eq]
  bv_omega

/-- A read after a write of the same cell (R41, R42). -/
theorem State.byteAt_setByte_same {s : State} (hw : s.mem.wf = true) (a : Word) (v : Byte) :
    (s.setByte a v).byteAt a = v := by
  rw [s.byteAt_setByte a v a hw, if_pos rfl]

theorem memRead_of_not_mapped {k : AccessKind} {a : Word} {s : State} (h : s.mapped a = false) :
    memRead k a s = .error (.mem a k) := by
  simp [memRead, h]

theorem memWrite_of_not_mapped {a : Word} {v : Byte} {s : State} (h : s.mapped a = false) :
    memWrite a v s = .error (.mem a .write) := by
  simp [memWrite, h]

/-- Settles O6: which cells there are, by the size, and the one-cell read after the one-cell write. -/
theorem memoryReadAfterWrite : Obligations.MemoryReadAfterWrite := by
  intro s a k v hw
  refine ⟨fun h => State.mapped_of_full h a, fun h => State.mapped_of_short h a, fun ha => ?_, fun ha => ?_⟩
  · refine ⟨memRead_eq_ok.mpr ⟨ha, rfl⟩, s.setByte a v, memWrite_eq_ok.mpr ⟨ha, rfl⟩, rfl, ?_, ?_, ?_⟩
    · exact memRead_eq_ok.mpr ⟨ha, State.byteAt_setByte_same hw a v⟩
    · exact Memory.wf_write s.mem _ v hw
    · exact fun x hx => s.byteAt_setByte_other a v x hx
  · exact ⟨memRead_of_not_mapped ha, memWrite_of_not_mapped ha⟩

/-! ## Two cells -/

theorem ne_add_one (a : Word) : a ≠ a + 1 := by bv_omega

/-- The two cells of a word after both are written (R45). -/
theorem State.byteAt_setWord {s : State} (hw : s.mem.wf = true) (a v : Word) :
    ((s.setByte a (lo8 v)).setByte (a + 1) (hi8 v)).byteAt a = lo8 v ∧
    ((s.setByte a (lo8 v)).setByte (a + 1) (hi8 v)).byteAt (a + 1) = hi8 v := by
  constructor
  · rw [State.byteAt_setByte_other _ _ _ _ (ne_add_one a), State.byteAt_setByte_same hw]
  · exact State.byteAt_setByte_same (Memory.wf_write s.mem _ _ hw) _ _

/-- Settles O7: a word is its two cells, low byte first, and each reads back. -/
theorem wordsLittleEndian : Obligations.WordsLittleEndian := by
  intro s a v k hw ha ha'
  obtain ⟨hlo, hhi⟩ := State.byteAt_setWord hw a v
  refine ⟨memRead16_eq_ok.mpr ⟨ha, ha', rfl⟩, _, memWrite16_eq_ok.mpr ⟨ha, ha', rfl⟩, ?_, ?_, fun x hx hx' => ?_, ?_⟩
  · rw [hlo, toNat_lo8]
  · rw [hhi, toNat_hi8]
  · rw [State.byteAt_setByte_other _ _ _ _ hx', State.byteAt_setByte_other _ _ _ _ hx]
  · refine memRead16_eq_ok.mpr ⟨ha, ha', ?_⟩
    rw [State.wordAt, hlo, hhi, join_hi8_lo8]

/-! ## The loader's image -/

/-- A placed byte changes memory and nothing else. -/
theorem State.putByte_frame (s : State) (a : Word) (v : Byte) :
    s.putByte a v = { s with mem := (s.putByte a v).mem } := by
  unfold State.putByte
  split <;> rfl

theorem State.wf_putByte {s : State} (hs : s.wf = true) (a : Word) (v : Byte) : (s.putByte a v).wf = true := by
  unfold State.putByte
  split
  · exact s.wf_setByte a v hs ‹_›
  · exact hs

theorem State.mem_wf_of_wf {s : State} (hs : s.wf = true) : s.mem.wf = true := (Bool.and_eq_true _ _ ▸ hs).1

/-- A cell of the store after a byte is placed. -/
theorem State.byteAt_putByte {s : State} (hs : s.wf = true) (a : Word) (v : Byte) {b : Word} (hb : s.mapped b = true) :
    (s.putByte a v).byteAt b = if a = b then v else s.byteAt b := by
  unfold State.putByte
  split
  · rw [s.byteAt_setByte a v b (State.mem_wf_of_wf hs)]
    exact if_congr eq_comm rfl rfl
  · next ha => rw [if_neg (fun h : a = b => ha (h ▸ hb))]

theorem State.mapped_putByte (s : State) (a : Word) (v : Byte) (b : Word) : (s.putByte a v).mapped b = s.mapped b := by
  rw [State.putByte_frame]
  rfl

/-- A loaded image changes memory and nothing else. -/
theorem State.loadImage_frame (s : State) (image : List (Word × Byte)) :
    s.loadImage image = { s with mem := (s.loadImage image).mem } := by
  induction image generalizing s with
  | nil => rfl
  | cons cell rest ih =>
    rw [State.loadImage, ih, State.putByte_frame]

theorem State.wf_loadImage {s : State} (hs : s.wf = true) (image : List (Word × Byte)) :
    (s.loadImage image).wf = true := by
  induction image generalizing s with
  | nil => exact hs
  | cons cell rest ih => exact ih (State.wf_putByte hs _ _)

/-- Each cell of the store holds the last byte that the image gives it, or what it held. -/
theorem State.byteAt_loadImage {s : State} (hs : s.wf = true) (image : List (Word × Byte)) {a : Word}
    (ha : s.mapped a = true) : (s.loadImage image).byteAt a =
      image.foldl (fun old cell => if cell.1 = a then cell.2 else old) (s.byteAt a) := by
  induction image generalizing s with
  | nil => rfl
  | cons cell rest ih =>
    rw [State.loadImage, ih (State.wf_putByte hs _ _) (by rw [State.mapped_putByte, ha]),
      State.byteAt_putByte hs _ _ ha, List.foldl_cons]

/-- The booted state is the reset state with the image in memory and both run flags clear (R182). -/
theorem State.boot_eq (cfg : Config) (image : List (Word × Byte)) : State.boot cfg image =
    { State.resetWith cfg with
      mem := ((State.resetWith cfg).loadImage image).mem, halted := false, stopped := false } := by
  rw [State.boot, State.loadImage_frame]
  simp [State.hostClear]

/-- Settles O3: the boot changes memory and the run flags only, and the image is placed cell by cell. -/
theorem bootPlacesImage : Obligations.BootPlacesImage := by
  intro cfg image
  have hw := State.wf_loadImage (State.wf_resetWith cfg) image
  rw [State.loadImage_frame] at hw
  rw [State.boot_eq]
  exact ⟨rfl, rfl, rfl, hw, rfl, fun a ha => State.byteAt_loadImage (State.wf_resetWith cfg) image ha⟩

/-! ## The stack -/

theorem push8_eq_ok {b : Byte} {s t : State} : push8 b s = .ok t ↔
    s.mapped (s.sp - 1) = true ∧ ({ s with sp := s.sp - 1 } : State).setByte (s.sp - 1) b = t := memWrite_eq_ok

theorem pop8_eq_ok {s : State} {p : Byte × State} : pop8 s = .ok p ↔
    s.mapped s.sp = true ∧ (s.byteAt s.sp, { s with sp := s.sp + 1 }) = p := by
  simp only [pop8, bind_eq_ok, memRead_eq_ok, pure_eq_ok, Except.ok.injEq]
  constructor
  · rintro ⟨_, ⟨hm, rfl⟩, hp⟩
    exact ⟨hm, hp⟩
  · rintro ⟨hm, hp⟩
    exact ⟨_, ⟨hm, rfl⟩, hp⟩

theorem sub_two_add_one (a : Word) : a - 2 + 1 = a - 1 := by bv_omega

theorem sub_two_add_two (a : Word) : a - 2 + 2 = a := by bv_omega

/-- The two bytes below SP after a push of a word (R112). -/
theorem State.byteAt_pushed {s : State} (hw : s.mem.wf = true) (v : Word) :
    (s.pushed v).byteAt (s.sp - 2) = lo8 v ∧ (s.pushed v).byteAt (s.sp - 1) = hi8 v := by
  constructor
  · exact State.byteAt_setByte_same (Memory.wf_write s.mem _ _ hw) _ _
  · rw [State.pushed, State.byteAt_setByte_other _ _ _ _ (by bv_omega)]
    exact State.byteAt_setByte_same (s := { s with sp := s.sp - 2 }) hw _ _

/-- The word on the stack after a push is the one pushed (R112). -/
theorem State.wordAt_pushed {s : State} (hw : s.mem.wf = true) (v : Word) : (s.pushed v).wordAt (s.sp - 2) = v := by
  obtain ⟨hlo, hhi⟩ := State.byteAt_pushed hw v
  rw [State.wordAt, sub_two_add_one, hlo, hhi, join_hi8_lo8]

/-- A pop after a push gives the word and SP back (R112, R113). -/
theorem pop16_pushed {s : State} (hw : s.mem.wf = true) {v : Word} (h1 : s.mapped (s.sp - 1) = true)
    (h2 : s.mapped (s.sp - 2) = true) : pop16 (s.pushed v) = .ok (v, { s.pushed v with sp := s.sp }) := by
  refine pop16_eq_ok.mpr ⟨h2, ?_, ?_⟩
  · rw [State.pushed_sp, sub_two_add_one]
    exact h1
  · rw [State.pushed_sp, State.wordAt_pushed hw, sub_two_add_two]

/-- What pushes of bytes leave unchanged: all but memory and SP, the canonical form, and every byte from SP up that the
pushes do not come round to. -/
theorem pushAll_frame {bs : List Byte} {s t : State} (h : pushAll bs s = .ok t) :
    t = { s with sp := t.sp, mem := t.mem } ∧ (s.mem.wf = true → t.mem.wf = true) ∧
      ∀ x, (x - s.sp).toNat + bs.length < 0x10000 → t.byteAt x = s.byteAt x := by
  induction bs generalizing s with
  | nil =>
    cases h
    exact ⟨rfl, id, fun _ _ => rfl⟩
  | cons b rest ih =>
    obtain ⟨s1, h1, h⟩ := bind_eq_ok.mp h
    obtain ⟨_, rfl⟩ := push8_eq_ok.mp h1
    obtain ⟨hf, hw, hx⟩ := ih h
    refine ⟨hf, fun h => hw (Memory.wf_write _ _ _ h), fun x hd => ?_⟩
    rw [List.length_cons] at hd
    have hne : x ≠ s.sp - 1 := by
      rintro rfl
      bv_omega
    rw [hx x, State.byteAt_setByte_other _ _ _ _ hne]
    · rfl
    · show (x - (s.sp - 1)).toNat + _ < _
      have : (x - (s.sp - 1)).toNat ≤ (x - s.sp).toNat + 1 := by bv_omega
      omega

/-- Popping one more byte after `n` of them. -/
theorem popAll_succ {n : Nat} {s t u : State} {bs : List Byte} {b : Byte} (h : popAll n s = .ok (bs, t))
    (hb : pop8 t = .ok (b, u)) : popAll (n + 1) s = .ok (bs ++ [b], u) := by
  induction n generalizing s bs with
  | zero =>
    cases h
    simp [popAll, hb]
  | succ n ih =>
    obtain ⟨⟨c, s1⟩, hc, h⟩ := bind_eq_ok.mp h
    obtain ⟨⟨cs, s2⟩, hcs, h⟩ := bind_eq_ok.mp h
    cases h
    rw [popAll, hc, ok_bind]
    simp only [ih hcs]
    rfl

/-- Pushed bytes come back last first (R112, R113): the first one pushed lies at the SP it left, which the others do not
reach. -/
theorem popAll_pushAll {bs : List Byte} {s t : State} (hw : s.mem.wf = true) (hl : bs.length ≤ 0x10000)
    (h : pushAll bs s = .ok t) : popAll bs.length t = .ok (bs.reverse, { t with sp := s.sp }) := by
  induction bs generalizing s with
  | nil =>
    cases h
    rfl
  | cons b rest ih =>
    obtain ⟨s1, h1, h⟩ := bind_eq_ok.mp h
    obtain ⟨hm, hs1⟩ := push8_eq_ok.mp h1
    have hw1 : s1.mem.wf = true := by
      rw [← hs1]
      exact Memory.wf_write _ _ _ hw
    have hsp : s1.sp = s.sp - 1 := by rw [← hs1]; rfl
    have hcfg : t.cfg = s.cfg := by rw [(pushAll_frame h).1, ← hs1]; rfl
    rw [List.length_cons] at hl
    obtain ⟨_, _, hx⟩ := pushAll_frame h
    have hb : t.byteAt (s.sp - 1) = b := by
      rw [hx _ (by rw [hsp, BitVec.sub_self]; simpa using hl), ← hs1]
      exact State.byteAt_setByte_same (s := { s with sp := s.sp - 1 }) hw _ _
    rw [List.length_cons, List.reverse_cons]
    refine popAll_succ (ih hw1 (by omega) h) (pop8_eq_ok.mpr ?_)
    rw [hsp]
    refine ⟨?_, ?_⟩
    · show decide (_ < memBytes t.cfg.memSize) = true
      rw [hcfg]
      exact hm
    · show (t.byteAt (s.sp - 1), _) = _
      rw [hb, BitVec.sub_add_cancel]

/-- Settles O8: one byte and one word by the primitives, and the LIFO law by induction on the bytes. -/
theorem stackLifo : Obligations.StackLifo := by
  refine ⟨fun s b h => push8_eq_ok.mpr ⟨h, rfl⟩, fun s h => pop8_eq_ok.mpr ⟨h, rfl⟩, fun s t v hw h => ?_,
    fun bs s t hw hl h => popAll_pushAll hw hl h⟩
  obtain ⟨h1, h2, rfl⟩ := push16_eq_ok.mp h
  obtain ⟨hlo, hhi⟩ := State.byteAt_pushed hw v
  rw [State.pushed_sp, sub_two_add_one]
  exact ⟨rfl, hlo, hhi, rfl, pop16_pushed hw h1 h2⟩

end Sys2Proof.Machine
end

section
/-! The fetch of a step, what a step runs and counts (30_encoding.md R85, R86), its faults
(60_exceptions.md R166 to R172), the single-byte operations (44_misc.md) and low power
(60_exceptions.md R181). -/

namespace Sys2Proof.Machine

/-! ## Fetch and decode -/

theorem decode_true_eq_none {tbl : PrefixTable} {code : Byte} (h : decode tbl code true = none) : tbl = .stub := by
  cases tbl with
  | stub => rfl
  | full => cases h

/-- A non-prefixed byte that decodes is its entry of the opcode map (R75). -/
theorem eq_decodeRow_of_decode {tbl : PrefixTable} {code : Byte} {i : Instr} (h : decode tbl code false = some i) :
    i = decodeRow code := by
  simp only [decode, decodeNamed, Bool.false_eq_true, if_false] at h
  split at h
  · cases h
    rfl
  · split at h <;> cases h

theorem lookup_of_some {code : Byte} {prefixed : Bool} {s : State} {i : Instr}
    (h : decode s.cfg.prefixTable code prefixed = some i) : lookup code prefixed s = .ok (i, code, prefixed) := by
  simp only [lookup, h]

theorem lookup_of_none {code : Byte} {prefixed : Bool} {s : State} (h : decode s.cfg.prefixTable code prefixed = none) :
    lookup code prefixed s = .error (.decode code prefixed) := by
  simp only [lookup, h, raise_eq_error]

/-- The code that a step decodes, with its prefixed flag: the byte at PC, or after the escape the byte at pc+1 (R85). -/
def State.fetchesCode (s : State) (code : Byte) (prefixed : Bool) : Prop :=
  s.mapped s.pc = true ∧
    ((prefixed = false ∧ s.byteAt s.pc ≠ 0xCB ∧ code = s.byteAt s.pc) ∨
      (prefixed = true ∧ s.byteAt s.pc = 0xCB ∧ s.mapped (s.pc + 1) = true ∧ code = s.byteAt (s.pc + 1)))

/-- Once its code is fetched, a step looks it up (R85). -/
theorem fetchInstr_of_fetchesCode {s : State} {code : Byte} {prefixed : Bool} (h : s.fetchesCode code prefixed) :
    fetchInstr s = lookup code prefixed s := by
  obtain ⟨hm, ⟨rfl, hb, rfl⟩ | ⟨rfl, hb, hm', rfl⟩⟩ := h
  · rw [fetchInstr, memRead_eq_ok.mpr ⟨hm, rfl⟩, ok_bind, if_neg hb]
  · rw [fetchInstr, memRead_eq_ok.mpr ⟨hm, rfl⟩, ok_bind, if_pos hb, memRead_eq_ok.mpr ⟨hm', rfl⟩, ok_bind]

theorem fetchInstr_of_not_mapped {s : State} (hm : s.mapped s.pc = false) :
    fetchInstr s = .error (.mem s.pc .fetch) := by
  rw [fetchInstr, memRead_of_not_mapped hm, error_bind]

theorem fetchInstr_of_code_not_mapped {s : State} (hm : s.mapped s.pc = true) (hb : s.byteAt s.pc = 0xCB)
    (hm' : s.mapped (s.pc + 1) = false) : fetchInstr s = .error (.mem (s.pc + 1) .fetch) := by
  rw [fetchInstr, memRead_eq_ok.mpr ⟨hm, rfl⟩, ok_bind, if_pos hb, memRead_of_not_mapped hm', error_bind]

/-- A fetch has no cell to read, or it comes to a code. -/
theorem fetchInstr_cases (s : State) :
    (s.mapped s.pc = false ∧ fetchInstr s = .error (.mem s.pc .fetch)) ∨
    (s.mapped s.pc = true ∧ s.byteAt s.pc = 0xCB ∧ s.mapped (s.pc + 1) = false ∧
      fetchInstr s = .error (.mem (s.pc + 1) .fetch)) ∨
    ∃ code prefixed, s.fetchesCode code prefixed := by
  cases hm : s.mapped s.pc with
  | false => exact .inl ⟨rfl, fetchInstr_of_not_mapped hm⟩
  | true =>
    by_cases hb : s.byteAt s.pc = 0xCB
    · cases hm' : s.mapped (s.pc + 1) with
      | false => exact .inr (.inl ⟨rfl, hb, rfl, fetchInstr_of_code_not_mapped hm hb hm'⟩)
      | true => exact .inr (.inr ⟨_, true, hm, .inr ⟨rfl, hb, hm', rfl⟩⟩)
    · exact .inr (.inr ⟨_, false, hm, .inl ⟨rfl, hb, rfl⟩⟩)

theorem fetchInstr_eq_ok {s : State} {i : Instr} {code : Byte} {prefixed : Bool} :
    fetchInstr s = .ok (i, code, prefixed) ↔
      s.fetchesCode code prefixed ∧ decode s.cfg.prefixTable code prefixed = some i := by
  constructor
  · intro h
    rcases fetchInstr_cases s with ⟨_, he⟩ | ⟨_, _, _, he⟩ | ⟨c, p, hc⟩
    · rw [he] at h
      cases h
    · rw [he] at h
      cases h
    · rw [fetchInstr_of_fetchesCode hc] at h
      obtain ⟨hd, rfl, rfl⟩ := lookup_eq_ok h
      exact ⟨hc, hd⟩
  · rintro ⟨hc, hd⟩
    rw [fetchInstr_of_fetchesCode hc, lookup_of_some hd]

/-! ## What a step runs -/

theorem step_of_fetch_error {s : State} {f : Fault} (h : fetchInstr s = .error f) : step s = .fault f := by
  rw [step, h]

theorem step_of_exec_next {s t : State} {i : Instr} {code : Byte} {prefixed : Bool}
    (hf : fetchInstr s = .ok (i, code, prefixed)) (h : exec i s = .next t) :
    step s = .next { t with lastCycles := stepCycles t.cfg s.running code prefixed t.lastExtra } := by
  simp only [step, hf, h, countCycles]

theorem step_of_exec_fault {s : State} {i : Instr} {code : Byte} {prefixed : Bool} {f : Fault}
    (hf : fetchInstr s = .ok (i, code, prefixed)) (h : exec i s = .fault f) : step s = .fault f := by
  simp only [step, hf, h, countCycles]

/-- Settles O13: the fetch gives the decoded row, which the step runs. -/
theorem stepRunsDecoded : Obligations.StepRunsDecoded := by
  intro s i code prefixed hm hplain hpre hd
  have hc : s.fetchesCode code prefixed := by
    refine ⟨hm, ?_⟩
    cases prefixed with
    | false => exact .inl ⟨rfl, hplain rfl⟩
    | true => exact .inr ⟨rfl, hpre rfl⟩
  have hf := fetchInstr_eq_ok.mpr ⟨hc, hd⟩
  exact ⟨fun t => step_of_exec_next hf, fun f => step_of_exec_fault hf⟩

/-- What a step decodes has an admitted value, so that the step runs the engine on it. -/
theorem exec_of_fetchInstr {s : State} {i : Instr} {code : Byte} {prefixed : Bool}
    (h : fetchInstr s = .ok (i, code, prefixed)) :
    ∃ o, i.op = some o ∧ o.admitted = true ∧ exec i s = execute o s := by
  obtain ⟨o, ho, ha⟩ := wf_iff.mp (wf_of_decode (decode_of_fetchInstr h))
  exact ⟨o, ho, ha, exec_eq_execute ho s⟩

/-! ## The faults of a step -/

/-- What execute raises on an admitted value: an access where there is no cell, or a read of what holds no value. -/
theorem execute_eq_fault_of_admitted {o : Op} (ha : o.admitted = true) {s : State} {f : Fault}
    (h : execute o s = .fault f) :
    (∃ n, f = .undef n ∧ s.holds n = false) ∨ ∃ k a, f = .mem a k ∧ s.mapped a = false := by
  rcases execute_eq_fault h with ⟨_, hn⟩ | h
  · rw [ha] at hn
    cases hn
  · exact h

/-- The faults of a step: of its fetch, of its decode, or of a check of the instruction (R172). -/
theorem step_fault_cases {s : State} {f : Fault} (h : step s = .fault f) :
    (∃ a k, f = .mem a k ∧ s.mapped a = false) ∨ (∃ n, f = .undef n ∧ s.holds n = false) ∨
      ∃ code prefixed, f = .decode code prefixed ∧ s.fetchesCode code prefixed ∧
        decode s.cfg.prefixTable code prefixed = none := by
  rcases fetchInstr_cases s with ⟨hm, he⟩ | ⟨_, _, hm, he⟩ | ⟨code, prefixed, hc⟩
  · rw [step_of_fetch_error he] at h
    cases h
    exact .inl ⟨_, _, rfl, hm⟩
  · rw [step_of_fetch_error he] at h
    cases h
    exact .inl ⟨_, _, rfl, hm⟩
  · cases hd : decode s.cfg.prefixTable code prefixed with
    | none =>
      rw [step_of_fetch_error ((fetchInstr_of_fetchesCode hc).trans (lookup_of_none hd))] at h
      cases h
      exact .inr (.inr ⟨_, _, rfl, hc, hd⟩)
    | some i =>
      rcases step_eq_fault h with hf | ⟨j, c, p, hf, hx⟩
      · rw [fetchInstr_eq_ok.mpr ⟨hc, hd⟩] at hf
        cases hf
      · obtain ⟨o, _, ha, hx'⟩ := exec_of_fetchInstr hf
        rw [hx'] at hx
        rcases execute_eq_fault_of_admitted ha hx with h | ⟨k, a, h⟩
        · exact .inr (.inl h)
        · exact .inl ⟨a, k, h⟩

/-- Settles O14: the fetch in its order, and the one place a decode failure comes from. -/
theorem stepFetchAndDecodeFaults : Obligations.StepFetchAndDecodeFaults := by
  intro s
  refine ⟨fun hm => ?_, fun hm hb => ⟨fun hm' => ?_, fun hm' ht => ?_⟩, fun hm hb => ?_, fun code prefixed h => ?_⟩
  · exact step_of_fetch_error (fetchInstr_of_not_mapped hm)
  · exact step_of_fetch_error (fetchInstr_of_code_not_mapped hm hb hm')
  · have hc : s.fetchesCode _ true := ⟨hm, .inr ⟨rfl, hb, hm', rfl⟩⟩
    refine step_of_fetch_error ((fetchInstr_of_fetchesCode hc).trans (lookup_of_none ?_))
    rw [ht]
    rfl
  · have hne : s.byteAt s.pc ≠ 0xCB := by
      intro h
      rw [h] at hb
      revert hb
      decide
    have hc : s.fetchesCode _ false := ⟨hm, .inl ⟨rfl, hne, rfl⟩⟩
    refine step_of_fetch_error ((fetchInstr_of_fetchesCode hc).trans (lookup_of_none ?_))
    exact (decode_eq_none_iff _ _).mpr (List.mem_append_left [0xCB] hb)
  · rcases step_fault_cases h with ⟨_, _, hf, _⟩ | ⟨_, hf, _⟩ | ⟨c, p, hf, ⟨_, hc⟩, hd⟩
    · cases hf
    · cases hf
    · cases hf
      rcases hc with ⟨rfl, hne, rfl⟩ | ⟨rfl, hb, _, rfl⟩
      · refine .inr ⟨rfl, rfl, ?_⟩
        simpa only [List.mem_cons, hne, false_or] using (decode_eq_none_iff _ _).mp hd
      · exact .inl ⟨rfl, hb, rfl, decode_true_eq_none hd⟩

/-- Settles O23: every memory fault is of an address with no cell, and only 0xFFFF under the short store has none. -/
theorem memoryFaultOnlyAtTop : Obligations.MemoryFaultOnlyAtTop := by
  intro s a k h
  have hm : s.mapped a = false := by
    rcases step_fault_cases h with ⟨_, _, hf, hm⟩ | ⟨_, hf, _⟩ | ⟨_, _, hf, _⟩ <;> cases hf
    exact hm
  cases hsize : s.cfg.memSize with
  | full =>
    rw [State.mapped_of_full hsize] at hm
    cases hm
  | short =>
    refine ⟨?_, rfl⟩
    by_contra hne
    rw [(State.mapped_of_short hsize a).mpr hne] at hm
    cases hm

/-- A step raises FATAL_UNDEF only for what holds no value (R170). -/
theorem not_holds_of_step_undef {s : State} {n : RegName} (h : step s = .fault (.undef n)) : s.holds n = false := by
  rcases step_fault_cases h with ⟨_, _, hf, _⟩ | ⟨_, hf, hn⟩ | ⟨_, _, hf, _⟩ <;> cases hf
  exact hn

/-- Settles O24: the fault is of a check that failed, and every update keeps what is held. -/
theorem undefinedReads : Obligations.UndefinedReads := by
  refine ⟨fun s n => not_holds_of_step_undef, fun s n hs h => ?_, fun s t n => step_holds, fun s t h hs => ?_⟩
  · have hn := s.allDefined_iff.mp hs n
    rw [not_holds_of_step_undef h] at hn
    cases hn
  · exact t.allDefined_iff.mpr fun n => step_holds h (s.allDefined_iff.mp hs n)

theorem exec_prefixCb_of_error {s : State} {f : Fault} (h : fetchPrefixed s = .error f) :
    exec .prefixCb s = .fault f := by
  simp only [exec, execPrefixCb, h]

/-- No row is refused: a row with a decoded value runs the engine, and the two others fault or run it. -/
theorem exec_ne_refused (i : Instr) (s : State) (r : Refusal) : exec i s ≠ .refused r := by
  cases ho : i.op with
  | some o =>
    rw [exec_eq_execute ho]
    exact execute_ne_refused o s r
  | none =>
    rcases op_eq_none ho with ⟨code, rfl⟩ | rfl
    · nofun
    · cases hf : fetchPrefixed s with
      | ok o =>
        rw [exec_prefixCb_eq hf]
        exact execute_ne_refused o s r
      | error f =>
        rw [exec_prefixCb_of_error hf]
        nofun

theorem step_ne_refused (s : State) (r : Refusal) : step s ≠ .refused r := by
  cases hf : fetchInstr s with
  | error f =>
    rw [step_of_fetch_error hf]
    nofun
  | ok p =>
    obtain ⟨i, code, prefixed⟩ := p
    cases hx : exec i s with
    | next t =>
      rw [step_of_exec_next hf hx]
      nofun
    | fault f =>
      rw [step_of_exec_fault hf hx]
      nofun
    | refused r' => exact absurd hx (exec_ne_refused i s r')

/-- Settles O26: exec and step go on or fault, and each fault has its code. -/
theorem nothingRefused : Obligations.NothingRefused := by
  refine ⟨exec_ne_refused, step_ne_refused, fun f => ?_⟩
  cases f <;> simp [Fault.code]

/-- Settles O56: an illegal row faults as it stands, and the escape row fetches its code as a step does. -/
theorem illegalAndEscapeRows : Obligations.IllegalAndEscapeRows := by
  refine ⟨fun _ _ => rfl, fun s => ⟨fun hm => ?_, fun hm ht => ?_, fun hm ht => ?_⟩⟩
  · exact exec_prefixCb_of_error (by rw [fetchPrefixed, memRead_of_not_mapped hm, error_bind])
  · refine exec_prefixCb_of_error ?_
    rw [fetchPrefixed, memRead_eq_ok.mpr ⟨hm, rfl⟩, ok_bind, ht]
    rfl
  · obtain ⟨o, hf, ho, _⟩ := fetchPrefixed_of_full hm ht
    exact ⟨_, rfl, (exec_prefixCb_eq hf).trans (exec_eq_execute ho s).symm⟩

/-! ## The single-byte operations -/

/-- A running row answers its arm's result, committed. -/
theorem exec_of_arm_ok {i : Instr} {o : Op} {s t : State} {p : Word} {x : Byte} (ho : i.op = some o)
    (hs : s.running = true) (ha : o.admitted = true) (h : arm o s = .ok ⟨t, p, x⟩) :
    exec i s = .next (t.commit p x) := by
  rw [exec_eq_execute ho, execute_of_running hs ha, h, finish_ok]

/-- Settles O53: none of the five arms makes a check. -/
theorem singleByteOperations : Obligations.SingleByteOperations := by
  intro s hs
  refine ⟨exec_of_arm_ok rfl hs rfl rfl, exec_of_arm_ok rfl hs rfl rfl, ?_, exec_of_arm_ok rfl hs rfl rfl,
    exec_of_arm_ok rfl hs rfl rfl⟩
  rw [exec_of_arm_ok rfl hs rfl (show arm .stop s = .ok ⟨_, _, _⟩ from rfl)]
  cases hlen : s.cfg.stopLen <;> simp [State.seqPc, Op.len, StopLen.bytes, hlen]

/-! ## The run flags -/

/-- No update but that of HALT writes halted (R28). -/
theorem armClosed_halted {o : Op} (ho : o ≠ .halt) (b : Bool) : ArmClosed o fun t => t.halted = b where
  setReg s r v _ hs := by rw [State.setReg_halted, hs]
  setFlags _ _ _ hs := hs
  setSp _ _ _ hs := hs
  setByte _ _ _ _ _ hs := hs
  setIme _ _ _ hs := hs
  setHalted _ h _ := absurd h ho
  setStopped _ _ hs := hs

/-- No update but that of STOP writes stopped (R29). -/
theorem armClosed_stopped {o : Op} (ho : o ≠ .stop) (b : Bool) : ArmClosed o fun t => t.stopped = b where
  setReg s r v _ hs := by rw [State.setReg_stopped, hs]
  setFlags _ _ _ hs := hs
  setSp _ _ _ hs := hs
  setByte _ _ _ _ _ hs := hs
  setIme _ _ _ hs := hs
  setHalted _ _ hs := hs
  setStopped _ h _ := absurd h ho

/-- Only HALT has the value of HALT. -/
theorem eq_halt_of_op {i : Instr} (h : i.op = some .halt) : i = .halt := by
  cases i <;> cases h
  rfl

/-- Only STOP has the value of STOP. -/
theorem eq_stop_of_op {i : Instr} (h : i.op = some .stop) : i = .stop := by
  cases i <;> cases h
  rfl

theorem exec_halted {i : Instr} {o : Op} (ho : i.op = some o) {s t : State} (h : exec i s = .next t) :
    t.halted = (s.halted || (s.running && decide (i = .halt))) := by
  by_cases hi : i = .halt
  · subst hi
    cases hs : s.running with
    | true =>
      rw [(singleByteOperations s hs).2.1] at h
      cases h
      simp
    | false =>
      rw [exec_eq_execute rfl, execute_of_not_running _ hs] at h
      cases h
      simp
  · rw [exec_eq_execute ho] at h
    have hne : o ≠ .halt := fun e => hi (eq_halt_of_op (e ▸ ho))
    rw [execute_keeps (armClosed_halted hne s.halted) (fun _ _ _ hs => hs) h rfl]
    simp [hi]

theorem exec_stopped {i : Instr} {o : Op} (ho : i.op = some o) {s t : State} (h : exec i s = .next t) :
    t.stopped = (s.stopped || (s.running && decide (i = .stop))) := by
  by_cases hi : i = .stop
  · subst hi
    cases hs : s.running with
    | true =>
      rw [(singleByteOperations s hs).2.2.1] at h
      cases h
      simp
    | false =>
      rw [exec_eq_execute rfl, execute_of_not_running _ hs] at h
      cases h
      simp
  · rw [exec_eq_execute ho] at h
    have hne : o ≠ .stop := fun e => hi (eq_stop_of_op (e ▸ ho))
    rw [execute_keeps (armClosed_stopped hne s.stopped) (fun _ _ _ hs => hs) h rfl]
    simp [hi]

/-- Settles O30: each run flag is written by one update, which one instruction makes. -/
theorem runFlagOwners : Obligations.RunFlagOwners := by
  refine ⟨fun i o s t ho h => ⟨exec_halted ho h, exec_stopped ho h⟩, fun s hs => ?_, fun _ _ _ => ⟨rfl, rfl⟩⟩
  obtain ⟨_, hhalt, hstop, _⟩ := singleByteOperations s hs
  exact ⟨⟨_, hhalt, rfl⟩, ⟨_, hstop, rfl⟩⟩

/-! ## Steps of a core that does not run -/

/-- While the core does not run, a step that decodes leaves all but the two cycle records (R82, R181). -/
theorem step_of_not_running {s : State} (hs : s.running = false) {i : Instr} {code : Byte} {prefixed : Bool}
    (hf : fetchInstr s = .ok (i, code, prefixed)) :
    step s = .next { s with lastExtra := 0, lastCycles := stepCycles s.cfg false code prefixed 0 } := by
  obtain ⟨o, _, _, hx⟩ := exec_of_fetchInstr hf
  rw [execute_of_not_running o hs] at hx
  rw [step_of_exec_next hf hx, hs]
  rfl

theorem step_eq_next_of_not_running {s t : State} (hs : s.running = false) (h : step s = .next t) :
    ∃ code prefixed, s.fetchesCode code prefixed ∧
      t = { s with lastExtra := 0, lastCycles := stepCycles s.cfg false code prefixed 0 } := by
  obtain ⟨i, code, prefixed, _, hf, _, _⟩ := step_eq_next h
  rw [step_of_not_running hs hf] at h
  cases h
  exact ⟨code, prefixed, (fetchInstr_eq_ok.mp hf).1, rfl⟩

/-- Settles O16: HALT and STOP by their arms, the steps of a core that does not run, and the host's clear. -/
theorem lowPowerSteps : Obligations.LowPowerSteps := by
  refine ⟨fun s hs => ?_, fun s t hs h => ?_, fun s i hs hm hb hd => ?_, fun s => ⟨?_, ?_⟩⟩
  · obtain ⟨_, hhalt, hstop, _⟩ := singleByteOperations s hs
    refine ⟨⟨_, hhalt, rfl, rfl, rfl⟩, ⟨_, hstop, rfl, ?_, rfl⟩⟩
    simp [State.running]
  · obtain ⟨code, prefixed, _, rfl⟩ := step_eq_next_of_not_running hs h
    exact ⟨rfl, rfl, hs⟩
  · exact ⟨_, step_of_not_running hs (fetchInstr_eq_ok.mpr ⟨⟨hm, .inl ⟨rfl, hb, rfl⟩⟩, hd⟩)⟩
  · simp [State.hostClear, State.running]
  · simp [State.hostClear]

end Sys2Proof.Machine
end

section
/-! Cycles (30_encoding.md R86; 43_control.md R140; 70_reset_and_hazards.md R186, R187) and frames (R87, R188). -/

namespace Sys2Proof.Machine

/-! ## The extra cycles of an instruction -/

theorem armLd8_extra {dst src : Loc8} {s : State} {r : Result} (h : armLd8 dst src s = .ok r) : r.extra = 0 := by
  simp only [armLd8, bind_eq_ok, pure_eq_ok, Except.ok.injEq] at h
  obtain ⟨_, _, _, _, _, _, rfl⟩ := h
  rfl

theorem armLd16_extra {w : WordLoad} {s : State} {r : Result} (h : armLd16 w s = .ok r) : r.extra = 0 := by
  cases w with
  | imm k => rw [(yields_armLd16Imm k s).eq_of_ok h]
  | nnSP => rw [(yields_armLd16NnSp s).eq_of_ok h]
  | spHL => rw [(yields_armLd16SpHl s).eq_of_ok h]
  | hlSPe => rw [(yields_armLd16HlSpE s).eq_of_ok h]

theorem armCb_extra {op : CbOp} {t : Loc8} (ht : t.isReadModifyWrite = true) {s : State} {r : Result}
    (h : armCb op t s = .ok r) : r.extra = 0 := by
  cases op with
  | rl | rr => rw [(yields_armCbRotateCarry _ ht _ s).eq_of_ok h]
  | bit b => rw [(yields_armCbBit b ht s).eq_of_ok h]
  | res | set => rw [(yields_armCbModify _ ht _ s).eq_of_ok h]
  | rlc | rrc | sla | sra | swap | srl => rw [(yields_armCbRotate _ ht _ s).eq_of_ok h]

theorem armJp_extra {cc : Cond} {f : JpForm} {s : State} {r : Result} (h : armJp cc f s = .ok r) :
    r.extra = if s.cond cc then jpPenalty else 0 := by
  cases f with
  | imm16 =>
    rw [(yields_armJpImm cc s).eq_of_ok h]
    split <;> rfl
  | rel8 =>
    rw [(yields_armJr cc s).eq_of_ok h]
    split <;> rfl
  | hl =>
    obtain ⟨p, hp, h⟩ := bind_eq_ok.mp h
    rw [(yields_evalCond cc s).eq_of_ok hp] at h
    cases hc : s.cond cc <;> simp only [hc, Bool.false_eq_true, if_true, if_false] at h ⊢
    · cases h
      rfl
    · obtain ⟨_, _, h⟩ := bind_eq_ok.mp h
      cases h
      rfl

/-- Every arm returns the branch penalty of its instruction as extra cycles (R140). -/
theorem arm_extra {o : Op} (ha : o.admitted = true) {s : State} {r : Result} (h : arm o s = .ok r) :
    r.extra.toNat = s.penalty o := by
  cases o with
  | ld8 dst src => rw [armLd8_extra h]; rfl
  | ld16 w => rw [armLd16_extra h]; rfl
  | push k => rw [(yields_armPush k s).eq_of_ok h]; rfl
  | pop k => rw [(yields_armPop k s).eq_of_ok h]; rfl
  | alu op src => rw [(yields_armAlu op ha s).eq_of_ok h]; rfl
  | inc8 t => rw [(yields_armInc8 ha s).eq_of_ok h]; rfl
  | dec8 t => rw [(yields_armDec8 ha s).eq_of_ok h]; rfl
  | daa => rw [(yields_armDaa s).eq_of_ok h]; rfl
  | cpl => rw [(yields_armCpl s).eq_of_ok h]; rfl
  | ccf => rw [(yields_armCcf s).eq_of_ok h]; rfl
  | rlca => rw [(yields_armRlca s).eq_of_ok h]; rfl
  | rrca => rw [(yields_armRrca s).eq_of_ok h]; rfl
  | rla => rw [(yields_armRla s).eq_of_ok h]; rfl
  | rra => rw [(yields_armRra s).eq_of_ok h]; rfl
  | inc16 k => rw [(yields_armInc16 k s).eq_of_ok h]; rfl
  | dec16 k => rw [(yields_armDec16 k s).eq_of_ok h]; rfl
  | add16 k => rw [(yields_armAdd16 k s).eq_of_ok h]; rfl
  | addSp => rw [(yields_armAddSp s).eq_of_ok h]; rfl
  | jp cc f =>
    rw [armJp_extra h, State.penalty]
    split <;> rfl
  | call cc =>
    rw [(yields_armCall cc s).eq_of_ok h, State.penalty]
    split <;> rfl
  | ret cc =>
    rw [(yields_armRet cc s).eq_of_ok h, State.penalty]
    split <;> rfl
  | rst t => rw [(yields_armRst t s).eq_of_ok h]; rfl
  | scf | nop | halt | stop | di | ei =>
    cases h
    rfl
  | cb op t => rw [armCb_extra ha h]; rfl

theorem execute_lastExtra {o : Op} {s t : State} (h : execute o s = .next t) :
    t.lastExtra.toNat = if s.running then s.penalty o else 0 := by
  rcases execute_eq_next h with ⟨hs, rfl⟩ | ⟨hs, ha, r, hr, rfl⟩
  · rw [hs]
    rfl
  · rw [hs]
    exact arm_extra ha hr

/-- Settles O18: each arm returns its instruction's penalty. -/
theorem branchPenalty : Obligations.BranchPenalty := by
  intro i o s t ho hs h
  rw [exec_eq_execute ho] at h
  rw [execute_lastExtra h, hs, if_pos rfl]

/-! ## The cycles of a step -/

/-- What a step counts: the table's entry for the code it fetched and the penalty of the row it
decoded, or nothing (R86, D19). -/
theorem step_counts {s t : State} (h : step s = .next t) :
    ∃ i o code prefixed, s.fetchesCode code prefixed ∧ decode s.cfg.prefixTable code prefixed = some i ∧
      i.op = some o ∧ t.lastExtra.toNat = (if s.running then s.penalty o else 0) ∧
      t.lastCycles = stepCycles s.cfg s.running code prefixed t.lastExtra := by
  obtain ⟨i, code, prefixed, u, hf, hx, rfl⟩ := step_eq_next h
  obtain ⟨o, ho, _, hx'⟩ := exec_of_fetchInstr hf
  obtain ⟨hc, hd⟩ := fetchInstr_eq_ok.mp hf
  refine ⟨i, o, code, prefixed, hc, hd, ho, execute_lastExtra (t := u) (hx' ▸ hx), ?_⟩
  rw [← exec_cfg hx]

/-- The table's entry of the code that is fetched. -/
theorem cycleTable_of_fetchesCode {s : State} {code : Byte} {prefixed : Bool} (h : s.fetchesCode code prefixed)
    (c : CycleTable) : cycleTable c code prefixed =
      if s.byteAt s.pc = 0xCB then cycleTable c (s.byteAt (s.pc + 1)) true else cycleTable c (s.byteAt s.pc) false := by
  obtain ⟨_, ⟨rfl, hb, rfl⟩ | ⟨rfl, hb, _, rfl⟩⟩ := h
  · rw [if_neg hb]
  · rw [if_pos hb]

theorem stepCycles_of_running (cfg : Config) (code : Byte) (prefixed : Bool) (x : Byte) :
    stepCycles cfg true code prefixed x = (cycleTable cfg.cycles code prefixed).toNat + x.toNat := by
  simp [stepCycles]

theorem stepCycles_of_zero {cfg : Config} (h : cfg.haltCycles = .zero) (code : Byte) (prefixed : Bool) (x : Byte) :
    stepCycles cfg false code prefixed x = 0 := by
  simp [stepCycles, h]

theorem stepCycles_of_table {cfg : Config} (h : cfg.haltCycles = .table) (running : Bool) (code : Byte)
    (prefixed : Bool) (x : Byte) :
    stepCycles cfg running code prefixed x = (cycleTable cfg.cycles code prefixed).toNat + x.toNat := by
  simp [stepCycles, h]

/-- The one entry the source fixes (R7). -/
theorem cycleTable_nop (c : CycleTable) : cycleTable c 0x00 false = 4 := by cases c <;> rfl

/-- A step at a byte other than the escape decodes that byte's row of the opcode map. -/
theorem eq_decodeRow_of_fetchesCode {s : State} {i : Instr} {code b : Byte} {prefixed : Bool}
    (hc : s.fetchesCode code prefixed) (hd : decode s.cfg.prefixTable code prefixed = some i) (hb : s.byteAt s.pc = b)
    (hne : b ≠ 0xCB) : code = b ∧ prefixed = false ∧ i = decodeRow b := by
  obtain ⟨_, ⟨rfl, _, rfl⟩ | ⟨_, h, _, _⟩⟩ := hc
  · exact ⟨hb, rfl, hb ▸ eq_decodeRow_of_decode hd⟩
  · exact absurd (hb.symm.trans h) hne

/-- A running step at a non-prefixed byte counts the byte's entry and its row's penalty. -/
theorem step_counts_at {s t : State} {b : Byte} {o : Op} (hs : s.running = true) (h : step s = .next t)
    (hb : s.byteAt s.pc = b) (hne : b ≠ 0xCB) (ho : (decodeRow b).op = some o) :
    t.lastCycles = (cycleTable s.cfg.cycles b false).toNat + s.penalty o := by
  obtain ⟨i, o', code, prefixed, hc, hd, ho', hx, hl⟩ := step_counts h
  obtain ⟨rfl, rfl, rfl⟩ := eq_decodeRow_of_fetchesCode hc hd hb hne
  rw [ho, Option.some.injEq] at ho'
  rw [hl, hs, stepCycles_of_running, hx, hs, if_pos rfl, ho']

/-- Settles O17: the record of a step by its run state and P_HALT_STEP_CYCLES. -/
theorem stepCycles_spec : Obligations.StepCycles := by
  intro s t h
  obtain ⟨i, o, code, prefixed, hc, _, _, hx, hl⟩ := step_counts h
  have htab := congrArg BitVec.toNat (cycleTable_of_fetchesCode hc s.cfg.cycles)
  rw [apply_ite BitVec.toNat] at htab
  refine ⟨fun hs => ?_, fun hs hz => ?_, fun hs ht => ?_, fun hs hb => ?_⟩
  · rw [hl, hs, stepCycles_of_running, htab]
  · rw [hl, hs, stepCycles_of_zero hz]
  · rw [hs, if_neg (by decide)] at hx
    rw [hl, stepCycles_of_table ht, htab, hx, Nat.add_zero]
  · rw [step_counts_at hs h hb (by decide) (o := .nop) rfl, cycleTable_nop]
    rfl

/-! ## The totals of the reference table -/

/-- The largest branch penalty of an instruction (R140). -/
def maxPenalty (o : Op) : Nat :=
  match o with
  | .jp _ _ => 4
  | .call _ | .ret _ => 12
  | _ => 0

theorem State.penalty_le_maxPenalty (s : State) (o : Op) : s.penalty o ≤ maxPenalty o := by
  cases o <;> simp only [State.penalty, maxPenalty, Nat.le_refl] <;> split <;> decide

/-- No entry of the reference table for a non-prefixed instruction, with the largest penalty, is
above 36 (R186, R187). -/
theorem referenceCycles_add_maxPenalty_le : ∀ b : Byte, (decodeRow b).wf = true →
    (referenceCycles b false).toNat + (decodeRow b).op.elim 0 maxPenalty ≤ 36 := by
  decide

theorem referenceCycles_prefixed_le (b : Byte) : (referenceCycles b true).toNat ≤ 16 := by
  simp only [referenceCycles, if_true]
  split
  · decide
  · split <;> decide

/-- A prefixed code that decodes is its entry of the FULL table (R154). -/
theorem eq_decodeCb_of_decode {tbl : PrefixTable} {code : Byte} {i : Instr} (h : decode tbl code true = some i) :
    i = decodeCb code := by
  cases tbl <;> cases h
  rfl

/-- No step counts more than 36 under the reference table, in any run state (R187, R188). -/
theorem step_lastCycles_le {s t : State} (hc : s.cfg.cycles = .reference) (h : step s = .next t) :
    t.lastCycles ≤ 36 := by
  obtain ⟨i, o, code, prefixed, _, hd, ho, hx, hl⟩ := step_counts h
  have hextra : t.lastExtra.toNat ≤ maxPenalty o := by
    rw [hx]
    split
    · exact s.penalty_le_maxPenalty o
    · exact Nat.zero_le _
  have htab : (referenceCycles code prefixed).toNat + maxPenalty o ≤ 36 := by
    cases prefixed with
    | false =>
      have hi := eq_decodeRow_of_decode hd
      have := referenceCycles_add_maxPenalty_le code (hi ▸ wf_of_decode hd)
      rwa [← hi, ho] at this
    | true =>
      obtain ⟨op, hop⟩ := decodeCb_op code
      rw [eq_decodeCb_of_decode hd, hop, Option.some.injEq] at ho
      rw [← ho]
      exact (referenceCycles_prefixed_le code).trans (by decide)
  rw [hl, stepCycles, hc]
  split
  · exact Nat.zero_le _
  · exact (Nat.add_le_add_left hextra _).trans htab

/-! A count plus the penalty of each condition (R139, R140). -/

theorem State.add_penalty_nz (s : State) (n p : Nat) :
    (n + if s.cond .nz then p else 0) = if s.f.z then n else n + p := by
  cases h : s.f.z <;> simp [State.cond, h]

theorem State.add_penalty_z (s : State) (n p : Nat) :
    (n + if s.cond .z then p else 0) = if s.f.z then n + p else n := by
  cases h : s.f.z <;> simp [State.cond, h]

theorem State.add_penalty_nc (s : State) (n p : Nat) :
    (n + if s.cond .nc then p else 0) = if s.f.c then n else n + p := by
  cases h : s.f.c <;> simp [State.cond, h]

theorem State.add_penalty_c (s : State) (n p : Nat) :
    (n + if s.cond .c then p else 0) = if s.f.c then n + p else n := by
  cases h : s.f.c <;> simp [State.cond, h]

/-- Settles O19: each total is its byte's entry and its row's penalty. -/
theorem referenceTotals : Obligations.ReferenceTotals := by
  intro s t hc hs h
  have total : ∀ {b : Byte} {o : Op}, b ≠ 0xCB → (decodeRow b).op = some o → s.byteAt s.pc = b →
      t.lastCycles = (referenceCycles b false).toNat + s.penalty o := by
    intro b o hne ho hb
    rw [step_counts_at hs h hb hne ho, hc]
    rfl
  have rst : ∀ b ∈ [(0xC7 : Byte), 0xCF, 0xD7, 0xDF, 0xE7, 0xEF, 0xF7, 0xFF], b ≠ 0xCB ∧
      (decodeRow b).op = some (.rst (BitVec.ofNat 16 (b.toNat - 0xC7))) ∧ (referenceCycles b false).toNat = 16 := by
    decide
  refine ⟨total (o := .jp .always .imm16) (by decide) rfl, total (o := .jp .always .rel8) (by decide) rfl,
    total (o := .jp .always .hl) (by decide) rfl, total (o := .call .always) (by decide) rfl,
    total (o := .ret .always) (by decide) rfl, total (o := .ret .alwaysIe) (by decide) rfl, fun hb => ?_,
    fun hb => (total (o := .jp .nz .imm16) (by decide) rfl hb).trans (s.add_penalty_nz 12 4),
    fun hb => (total (o := .jp .z .imm16) (by decide) rfl hb).trans (s.add_penalty_z 12 4),
    fun hb => (total (o := .jp .nc .imm16) (by decide) rfl hb).trans (s.add_penalty_nc 12 4),
    fun hb => (total (o := .jp .c .imm16) (by decide) rfl hb).trans (s.add_penalty_c 12 4),
    fun hb => (total (o := .jp .nz .rel8) (by decide) rfl hb).trans (s.add_penalty_nz 8 4),
    fun hb => (total (o := .jp .z .rel8) (by decide) rfl hb).trans (s.add_penalty_z 8 4),
    fun hb => (total (o := .jp .nc .rel8) (by decide) rfl hb).trans (s.add_penalty_nc 8 4),
    fun hb => (total (o := .jp .c .rel8) (by decide) rfl hb).trans (s.add_penalty_c 8 4),
    fun hb => (total (o := .call .nz) (by decide) rfl hb).trans (s.add_penalty_nz 12 12),
    fun hb => (total (o := .call .z) (by decide) rfl hb).trans (s.add_penalty_z 12 12),
    fun hb => (total (o := .call .nc) (by decide) rfl hb).trans (s.add_penalty_nc 12 12),
    fun hb => (total (o := .call .c) (by decide) rfl hb).trans (s.add_penalty_c 12 12),
    fun hb => (total (o := .ret .nz) (by decide) rfl hb).trans (s.add_penalty_nz 8 12),
    fun hb => (total (o := .ret .z) (by decide) rfl hb).trans (s.add_penalty_z 8 12),
    fun hb => (total (o := .ret .nc) (by decide) rfl hb).trans (s.add_penalty_nc 8 12),
    fun hb => (total (o := .ret .c) (by decide) rfl hb).trans (s.add_penalty_c 8 12), step_lastCycles_le hc h⟩
  obtain ⟨hne, ho, h16⟩ := rst _ hb
  rw [total hne ho rfl, h16]
  rfl

/-! ## Frames -/

theorem frameLoop_of_le {budget acc : Nat} (h : budget ≤ acc) (fuel : Nat) (s : State) :
    frameLoop budget fuel acc s = .returned acc s := by
  unfold frameLoop
  rw [if_pos h]

theorem frameLoop_of_no_fuel {budget acc : Nat} (h : acc < budget) (s : State) :
    frameLoop budget 0 acc s = .unfinished acc s := by
  unfold frameLoop
  rw [if_neg (Nat.not_le.mpr h)]

theorem frameLoop_of_step {budget acc : Nat} (h : acc < budget) {s t : State} (hx : step s = .next t) (fuel : Nat) :
    frameLoop budget (fuel + 1) acc s = frameLoop budget fuel (acc + t.lastCycles) t := by
  conv => lhs; unfold frameLoop
  simp only [if_neg (Nat.not_le.mpr h), hx]

/-- A frame loop that returns had reached its budget, or runs a step and returns (R87). -/
theorem frameLoop_eq_returned {budget fuel acc acc' : Nat} {s t : State}
    (h : frameLoop budget fuel acc s = .returned acc' t) :
    (budget ≤ acc ∧ acc' = acc) ∨
      acc < budget ∧ ∃ n u, fuel = n + 1 ∧ step s = .next u ∧
        frameLoop budget n (acc + u.lastCycles) u = .returned acc' t := by
  by_cases hle : budget ≤ acc
  · rw [frameLoop_of_le hle] at h
    cases h
    exact .inl ⟨hle, rfl⟩
  · have hlt := Nat.not_le.mp hle
    refine .inr ⟨hlt, ?_⟩
    cases fuel with
    | zero =>
      rw [frameLoop_of_no_fuel hlt] at h
      cases h
    | succ n =>
      cases hx : step s with
      | next u => exact ⟨n, u, rfl, rfl, by rwa [frameLoop_of_step hlt hx] at h⟩
      | fault f => simp [frameLoop, hle, hx] at h
      | refused r => exact absurd hx (step_ne_refused s r)

/-- What a frame loop that returns has counted, from a count below the bound (R188). -/
theorem frameLoop_returned_bounds {budget fuel acc acc' : Nat} {s t : State} (hc : s.cfg.cycles = .reference)
    (ha : acc < budget + 36) (h : frameLoop budget fuel acc s = .returned acc' t) :
    budget ≤ acc' ∧ acc' < budget + 36 := by
  induction fuel generalizing acc s with
  | zero =>
    obtain ⟨hle, rfl⟩ | ⟨_, _, _, hn, _⟩ := frameLoop_eq_returned h
    · exact ⟨hle, ha⟩
    · cases hn
  | succ fuel ih =>
    obtain ⟨hle, rfl⟩ | ⟨hlt, _, u, hn, hx, h⟩ := frameLoop_eq_returned h
    · exact ⟨hle, ha⟩
    · cases hn
      have hmax := step_lastCycles_le hc hx
      exact ih (by rw [step_cfg hx, hc]) (by omega) h

/-- More fuel does not change what a frame loop returns. -/
theorem frameLoop_returned_mono {budget fuel acc acc' : Nat} {s t : State}
    (h : frameLoop budget fuel acc s = .returned acc' t) (more : Nat) :
    frameLoop budget (fuel + more) acc s = .returned acc' t := by
  induction fuel generalizing acc s with
  | zero =>
    obtain ⟨hle, _⟩ | ⟨_, _, _, hn, _⟩ := frameLoop_eq_returned h
    · rwa [frameLoop_of_le hle] at h ⊢
    · cases hn
  | succ fuel ih =>
    obtain ⟨hle, _⟩ | ⟨hlt, _, u, hn, hx, h⟩ := frameLoop_eq_returned h
    · rwa [frameLoop_of_le hle] at h ⊢
    · cases hn
      rw [Nat.succ_add, frameLoop_of_step hlt hx]
      exact ih h

/-- Settles O20: the loop stops with the first step that reaches the budget, and a step counts at most 36. -/
theorem frameBudget_spec : Obligations.FrameBudget := by
  intro f fuel acc s t hc h
  obtain ⟨hle, hlt⟩ := frameLoop_returned_bounds hc (Nat.succ_pos _) h
  exact ⟨hle, hlt, frameLoop_returned_mono h⟩

/-! ## Frames of a core that does not run -/

/-- The core does not run, and the byte at PC is NOP's (R82, R148). -/
def State.idlesAtNop (s : State) : Prop := s.running = false ∧ s.mapped s.pc = true ∧ s.byteAt s.pc = 0x00

/-- A step of an idle core leaves it idle, at the same PC, and counts NOP's four cycles or none (D19, R7). -/
theorem step_of_idlesAtNop {s : State} (hs : s.idlesAtNop) :
    ∃ t, step s = .next t ∧ t.idlesAtNop ∧ t.pc = s.pc ∧ t.cfg = s.cfg ∧
      t.lastCycles = match s.cfg.haltCycles with | .zero => 0 | .table => 4 := by
  obtain ⟨hr, hm, hb⟩ := hs
  have hd : decode s.cfg.prefixTable (s.byteAt s.pc) false = some .nop := by rw [hb]; cases s.cfg.prefixTable <;> rfl
  have hf := fetchInstr_eq_ok.mpr ⟨⟨hm, .inl ⟨rfl, by rw [hb]; decide, rfl⟩⟩, hd⟩
  refine ⟨_, step_of_not_running hr hf, ⟨hr, hm, hb⟩, rfl, rfl, ?_⟩
  show stepCycles s.cfg false (s.byteAt s.pc) false 0 = _
  cases h : s.cfg.haltCycles with
  | zero => rw [stepCycles_of_zero h]
  | table =>
    rw [stepCycles_of_table h, hb, cycleTable_nop]
    rfl

/-- Under ZERO no fuel brings an idle core to its budget (U17). -/
theorem frameLoop_idle_zero {budget : Nat} (hpos : 0 < budget) (fuel : Nat) {s : State} (hs : s.idlesAtNop)
    (hz : s.cfg.haltCycles = .zero) : ∃ t, frameLoop budget fuel 0 s = .unfinished 0 t := by
  induction fuel generalizing s with
  | zero => exact ⟨s, frameLoop_of_no_fuel hpos s⟩
  | succ fuel ih =>
    obtain ⟨t, hx, ht, _, hcfg, hl⟩ := step_of_idlesAtNop hs
    replace hl : t.lastCycles = 0 := hl.trans (by rw [hz])
    rw [frameLoop_of_step hpos hx, hl]
    exact ih ht (by rw [hcfg, hz])

/-- Under TABLE an idle core takes the `k` steps of four cycles that its budget asks for (R188). -/
theorem frameLoop_idle_table {budget : Nat} (k : Nat) {fuel acc : Nat} (hfuel : k ≤ fuel) (hle : budget ≤ acc + 4 * k)
    (hlt : acc + 4 * k < budget + 4) {s : State} (hs : s.idlesAtNop) (ht : s.cfg.haltCycles = .table) :
    ∃ t, frameLoop budget fuel acc s = .returned (acc + 4 * k) t ∧ t.pc = s.pc := by
  induction k generalizing fuel acc s with
  | zero => exact ⟨s, frameLoop_of_le hle fuel s, rfl⟩
  | succ k ih =>
    obtain ⟨n, rfl⟩ := Nat.exists_eq_add_of_le' (Nat.one_le_of_lt hfuel)
    obtain ⟨u, hx, hu, hpc, hcfg, hl⟩ := step_of_idlesAtNop hs
    replace hl : u.lastCycles = 4 := hl.trans (by rw [ht])
    rw [frameLoop_of_step (by omega) hx, hl, ← hpc, show acc + 4 * (k + 1) = acc + 4 + 4 * k by omega]
    exact ih (by omega) (by omega) (by omega) hu (by rw [hcfg, ht])

/-- Settles O21: each step of the idle core counts the same, none under ZERO and four under TABLE. -/
theorem frameWhileHalted : Obligations.FrameWhileHalted := by
  intro f s hr hm hb
  refine ⟨fun hz hpos fuel => frameLoop_idle_zero hpos fuel ⟨hr, hm, hb⟩ hz, fun ht fuel hfuel => ?_⟩
  have h := frameLoop_idle_table (budget := frameBudget f) (acc := 0) _ hfuel (by omega) (by omega) ⟨hr, hm, hb⟩ ht
  rwa [Nat.zero_add] at h

end Sys2Proof.Machine
end

section
/-! The loads, the stores and the stack instructions (40_load.md): each is its arm's answer, with
the words and offsets of the arm in numbers. -/

namespace Sys2Proof.Machine

/-! ## Words in numbers -/

/-- An answer, with its next state in another form. -/
theorem Answers.of_state_eq {o : Host.Outcome State Fault Refusal} {cs : List (Option Fault)} {t t' : State}
    (h : Answers o cs t) (e : t = t') : Answers o cs t' := e ▸ h

theorem Answers.of_checks_eq {o : Host.Outcome State Fault Refusal} {cs cs' : List (Option Fault)} {t : State}
    (h : Answers o cs t) (e : cs = cs') : Answers o cs' t := e ▸ h

/-- A sum of two values in numbers (R13). -/
theorem add_eq_ofNat {w : Nat} (x y : BitVec w) : x + y = BitVec.ofNat w (x.toNat + y.toNat) := by
  rw [BitVec.ofNat_add, BitVec.ofNat_toNat, BitVec.ofNat_toNat, BitVec.setWidth_eq, BitVec.setWidth_eq]

/-- A difference of two values in integers (R13). -/
theorem sub_eq_ofInt {w : Nat} (x y : BitVec w) : x - y = BitVec.ofInt w (x.toNat - y.toNat) := by
  rw [Int.sub_eq_add_neg, BitVec.ofInt_add, BitVec.ofInt_neg, BitVec.ofInt_natCast, BitVec.ofInt_natCast,
    BitVec.ofNat_toNat, BitVec.ofNat_toNat, BitVec.setWidth_eq, BitVec.setWidth_eq, BitVec.sub_eq_add_neg]

theorem add_one_eq_ofNat (w : Word) : w + 1 = BitVec.ofNat 16 (w.toNat + 1) := add_eq_ofNat w 1

theorem sub_one_eq_ofInt (w : Word) : w - 1 = BitVec.ofInt 16 (w.toNat - 1) := sub_eq_ofInt w 1

/-- A word plus a signed byte (R14, R111). -/
theorem add_sext16 (w : Word) (u : Byte) : w + sext16 u = BitVec.ofInt 16 (w.toNat + u.toInt) := by
  rw [BitVec.ofInt_add, BitVec.ofInt_natCast, BitVec.ofNat_toNat, BitVec.setWidth_eq]
  rfl

/-- The signed value of a byte (R14). -/
theorem toInt_byte (u : Byte) : u.toInt = if u.toNat < 128 then (u.toNat : Int) else (u.toNat : Int) - 256 := by
  rw [BitVec.toInt_eq_toNat_cond]
  split <;> split <;> omega

/-- An address of the high page has 0xFF above its offset (R70). -/
theorem highPage_eq_join (n : Byte) : 0xFF00 + zext16 n = join 0xFF n := by
  apply BitVec.eq_of_toNat_eq
  have h8 : (0xFF : Byte).toNat = 0xFF := rfl
  have h16 : (0xFF00 : Word).toNat = 0xFF00 := rfl
  rw [toNat_join, zext16, BitVec.toNat_add, BitVec.toNat_setWidth, h8, h16]
  omega

theorem lo8_eq_ofNat (w : Word) : lo8 w = BitVec.ofNat 8 (w.toNat % 256) := by
  apply BitVec.eq_of_toNat_eq
  simp [toNat_lo8]

theorem hi8_eq_ofNat (w : Word) : hi8 w = BitVec.ofNat 8 (w.toNat / 256) := by
  apply BitVec.eq_of_toNat_eq
  have := w.isLt
  rw [toNat_hi8, BitVec.toNat_ofNat]
  omega

/-- The word of a 16-bit immediate, from its two bytes (R69). -/
theorem State.wordAt_imm16 (s : State) : s.wordAt (s.pc + 1) = join (s.byteAt (s.pc + 2)) (s.byteAt (s.pc + 1)) := by
  rw [State.wordAt, add_one_add_one]

/-! ## Loads -/

/-- A load of a register answers its operand, with HL moved by (HL+) and (HL-). -/
theorem answers_load (rd : Reg8) (src : Loc8) {i : Instr} {s : State} (hi : i.op = some (.ld8 (.reg rd) src))
    (hs : s.running = true) :
    Answers (exec i s) (s.readChecks src)
      (((locAfter src s).setReg rd (s.operand src)).commit (s.seqPc (.ld8 (.reg rd) src)) 0) :=
  answers_of_arm hi hs (admitted_of_op hi nofun) (yields_armLd8_load rd src s)

/-- Settles O31: a load of a register from a register, from n or from (HL). -/
theorem ldRegister : Obligations.LdRegister := fun _ rd rs _ hs =>
  ⟨fun hi => answers_load rd (.reg rs) hi hs, fun hi => answers_load rd .imm8 hi hs,
    fun hi => answers_load rd .indHL hi hs⟩

/-- Settles O32: a load of A through each address, which for the high page and for HL's move is put in numbers. -/
theorem ldAccumulator : Obligations.LdAccumulator := by
  intro s hs
  refine ⟨answers_load .a .indBC rfl hs, answers_load .a .indDE rfl hs, ?_, ?_, answers_load .a .abs16 rfl hs, ?_, ?_⟩
  · rw [← add_one_eq_ofNat]
    exact answers_load .a .indHLInc rfl hs
  · rw [← sub_one_eq_ofInt]
    exact answers_load .a .indHLDec rfl hs
  · rw [← highPage_eq_join]
    exact answers_load .a .highImm rfl hs
  · rw [← highPage_eq_join]
    exact answers_load .a .highC rfl hs

/-! ## Byte stores -/

/-- A store of a register through a memory operand. -/
theorem answers_store (dst : Loc8) (r : Reg8) {i : Instr} {s : State} (hi : i.op = some (.ld8 dst (.reg r)))
    (hs : s.running = true) (hd : dst.isRegister = false) :
    Answers (exec i s) (s.placeChecks dst ++ [s.regCheck r, s.memCheck .write (s.address dst)])
      ((locAfter dst (s.setByte (s.address dst) (s.reg r))).commit (s.seqPc (.ld8 dst (.reg r))) 0) :=
  answers_of_arm hi hs (admitted_of_op hi nofun) (yields_armLd8_store hd r s)

/-- Settles O33: a store through each address, and the store of n. -/
theorem byteStores : Obligations.ByteStores := by
  intro s hs
  refine ⟨fun i r hi => answers_store .indHL r hi hs rfl,
    answers_of_arm (o := .ld8 .indHL .imm8) rfl hs rfl (yields_armLd8_storeImm s), answers_store .indBC .a rfl hs rfl,
    answers_store .indDE .a rfl hs rfl, ?_, ?_, answers_store .abs16 .a rfl hs rfl, ?_, ?_⟩
  · rw [← add_one_eq_ofNat]
    exact answers_store .indHLInc .a rfl hs rfl
  · rw [← sub_one_eq_ofInt]
    exact answers_store .indHLDec .a rfl hs rfl
  · rw [← highPage_eq_join]
    exact answers_store .highImm .a rfl hs rfl
  · rw [← highPage_eq_join]
    exact answers_store .highC .a rfl hs rfl

/-! ## Word loads -/

/-- Settles O34: the pair takes the immediate's word, and SP takes HL. -/
theorem ldPair : Obligations.LdPair := by
  intro i k s hs
  refine ⟨fun hi => ?_, answers_of_arm (o := .ld16 .spHL) rfl hs rfl (yields_armLd16SpHl s)⟩
  rw [← State.wordAt_imm16]
  exact answers_of_arm hi hs rfl (yields_armLd16Imm k s)

/-- Settles O35: the two halves of SP in numbers. -/
theorem ldStackPointerStore : Obligations.LdStackPointerStore := by
  intro s hs
  rw [← lo8_eq_ofNat, ← hi8_eq_ofNat]
  exact answers_of_arm (o := .ld16 .nnSP) rfl hs rfl (yields_armLd16NnSp s)

/-- Settles O36: the offset is the signed byte, and the flags are those of the unsigned low-byte sum. -/
theorem stackPointerOffset : Obligations.StackPointerOffset := by
  rintro s u e hs rfl he
  have hsum : BitVec.ofInt 16 (s.sp.toNat + e) = s.sp + sext16 (s.byteAt (s.pc + 1)) := by
    rw [add_sext16, toInt_byte, he]
  rw [hsum]
  exact ⟨answers_of_arm (o := .ld16 .hlSPe) rfl hs rfl (yields_armLd16HlSpE s),
    answers_of_arm (o := .addSp) rfl hs rfl (yields_armAddSp s)⟩

/-! ## The stack -/

/-- Settles O37: the halves of the pair that is pushed or popped. -/
theorem pushPop : Obligations.PushPop := by
  intro i k s hs
  constructor
  · intro hi
    refine ((answers_of_arm hi hs rfl (yields_armPush k s)).of_state_eq ?_).of_checks_eq ?_
    · cases k <;> simp only [State.pushed, State.stk, State.pair, hi8_join, lo8_join] <;> rfl
    · cases k <;> rfl
  · intro hi
    refine (answers_of_arm hi hs rfl (yields_armPop k s)).of_state_eq ?_
    cases k <;> simp only [State.setStk, State.setPair, State.wordAt, hi8_join, lo8_join] <;> rfl

end Sys2Proof.Machine
end

section
/-! Arithmetic, logic and rotates (41_alu8.md, 42_alu16.md, 45_prefixed.md): each instruction is its
arm's answer, with the results and flags of the machine's functions in numbers. -/

namespace Sys2Proof.Machine

/-! ## Zero tests and low nibbles in numbers -/

theorem beq_zero_eq_decide {w : Nat} (x : BitVec w) : (x == 0) = decide (x.toNat = 0) := by
  rw [Bool.eq_iff_iff, beq_iff_eq, decide_eq_true_eq, ← BitVec.toNat_inj, BitVec.ofNat_eq_ofNat, BitVec.toNat_zero]

theorem toNat_and_0F (v : Byte) : (v &&& 0x0F).toNat = v.toNat % 16 := by
  rw [BitVec.toNat_and]
  exact Nat.and_two_pow_sub_one_eq_mod v.toNat 4

/-! ## Two-operand operations -/

theorem addWithCarry_eq (a v : Byte) (c : Bool) : addWithCarry a v c =
    ⟨BitVec.ofNat 8 (a.toNat + v.toNat + b2n c),
      ⟨some (decide ((a.toNat + v.toNat + b2n c) % 256 = 0)), some false,
        some (decide (a.toNat % 16 + v.toNat % 16 + b2n c > 0x0F)),
        some (decide (a.toNat + v.toNat + b2n c > 0xFF))⟩⟩ := by
  simp only [addWithCarry, beq_zero_eq_decide, BitVec.toNat_ofNat]

theorem b2b_toNat (c : Bool) : (b2b c).toNat = b2n c := by cases c <;> rfl

theorem sub_sub_b2b (a v : Byte) (c : Bool) : a - v - b2b c = BitVec.ofInt 8 ((a.toNat : Int) - v.toNat - b2n c) := by
  rw [← b2b_toNat]
  bv_omega

theorem subWithBorrow_eq (a v : Byte) (c : Bool) : subWithBorrow a v c =
    ⟨BitVec.ofInt 8 ((a.toNat : Int) - v.toNat - b2n c),
      ⟨some (decide (((a.toNat : Int) - v.toNat - b2n c) % 256 = 0)), some true,
        some (decide (a.toNat % 16 < v.toNat % 16 + b2n c)),
        some (decide (a.toNat < v.toNat + b2n c))⟩⟩ := by
  have hz : (a - v - b2b c == 0) = decide (((a.toNat : Int) - v.toNat - b2n c) % 256 = 0) := by
    rw [beq_zero_eq_decide, sub_sub_b2b, BitVec.toNat_ofInt, decide_eq_decide]
    omega
  rw [subWithBorrow, hz, sub_sub_b2b]

/-- Without a borrow the difference is zero exactly when the two are equal. -/
theorem subWithBorrow_false_eq (a v : Byte) : subWithBorrow a v false =
    ⟨BitVec.ofInt 8 ((a.toNat : Int) - v.toNat),
      ⟨some (decide (a = v)), some true, some (decide (a.toNat % 16 < v.toNat % 16)),
        some (decide (a.toNat < v.toNat))⟩⟩ := by
  have hz : ((a.toNat : Int) - v.toNat) % 256 = 0 ↔ a = v := by bv_omega
  rw [subWithBorrow_eq]
  simp only [b2n, Bool.false_eq_true, if_false, Nat.add_zero, Int.natCast_zero, Int.sub_zero, hz]

/-- The length of a two-operand instruction: two bytes when its operand is n (R66). -/
theorem State.seqPc_alu (s : State) (op : AluOp) {src : Loc8} (h : src.isAluSource = true) :
    s.seqPc (.alu op src) = s.pc + if src = .imm8 then 2 else 1 := by
  rcases isAluSource_iff.mp h with ⟨r, rfl⟩ | rfl | rfl
  · simp only [State.seqPc, Op.len, Loc8.operandBytes, reduceCtorEq, if_false]
    rfl
  · rfl
  · rfl

/-- A two-operand instruction answers the operation's result and flags. -/
theorem answers_alu (op : AluOp) {src : Loc8} {i : Instr} {s : State} (hi : i.op = some (.alu op src))
    (hs : s.running = true) :
    Answers (exec i s) (s.readChecks src ++ ([s.regCheck .a] ++ if readsCarry op then [s.flagCheck .c] else []))
      (((storeAluResult op (alu8 op s.a (s.operand src) s.f.c).result s).setFlags
        (alu8 op s.a (s.operand src) s.f.c).flags).commit (s.pc + if src = .imm8 then 2 else 1) 0) := by
  have ha : src.isAluSource = true := admitted_of_op hi nofun
  rw [← s.seqPc_alu op ha]
  exact answers_of_arm hi hs ha (yields_armAlu op ha s)

/-- Settles O38: the exact sums of the operation. -/
theorem addAndAdc : Obligations.AddAndAdc := by
  intro i src s hs
  refine ⟨fun hi => ?_, fun hi => ?_⟩
  · have h := answers_alu .add hi hs
    simp only [alu8, addWithCarry_eq] at h
    exact h
  · have h := answers_alu .adc hi hs
    simp only [alu8, addWithCarry_eq] at h
    exact h

/-- Settles O39: the exact differences of the operation. -/
theorem subSbcAndCp : Obligations.SubSbcAndCp := by
  intro i src s hs
  refine ⟨fun hi => ?_, fun hi => ?_, fun hi => ?_⟩
  · have h := answers_alu .sub hi hs
    simp only [alu8, subWithBorrow_false_eq] at h
    exact h
  · have h := answers_alu .sbc hi hs
    simp only [alu8, subWithBorrow_eq] at h
    exact h
  · have h := answers_alu .cp hi hs
    simp only [alu8, subWithBorrow_false_eq] at h
    exact h

/-- Settles O40: the zero test of each operation in terms of its operands. -/
theorem logic : Obligations.Logic := by
  intro i src s hs
  refine ⟨fun hi => ?_, fun hi => ?_, fun hi => ?_⟩
  · have h := answers_alu .and hi hs
    simp only [alu8, logicResult, beq_eq_decide] at h
    exact h
  · have h := answers_alu .xor hi hs
    simp only [alu8, logicResult, beq_eq_decide, BitVec.ofNat_eq_ofNat, BitVec.xor_eq_zero_iff] at h
    exact h
  · have h := answers_alu .or hi hs
    simp only [alu8, logicResult, beq_eq_decide, BitVec.ofNat_eq_ofNat, BitVec.or_eq_zero_iff] at h
    exact h

/-! ## INC and DEC -/

theorem inc8Result_eq (v : Byte) : inc8Result v = ⟨BitVec.ofNat 8 (v.toNat + 1),
    ⟨some (decide (v.toNat = 0xFF)), some false, some (decide (v.toNat % 16 = 0x0F)), none⟩⟩ := by
  have hz : v + 1 = 0 ↔ v.toNat = 0xFF := by bv_omega
  have hh : v &&& 0x0F = 0x0F ↔ v.toNat % 16 = 0x0F := by
    rw [← BitVec.toNat_inj, toNat_and_0F]
    rfl
  simp only [inc8Result, beq_eq_decide, hz, hh]
  rw [add_eq_ofNat v 1]
  rfl

theorem dec8Result_eq (v : Byte) : dec8Result v = ⟨BitVec.ofInt 8 (v.toNat - 1),
    ⟨some (decide (v.toNat = 0x01)), some true, some (decide (v.toNat % 16 = 0)), none⟩⟩ := by
  have hz : v - 1 = 0 ↔ v.toNat = 0x01 := by bv_omega
  have hh : v &&& 0x0F = 0x00 ↔ v.toNat % 16 = 0 := by
    rw [← BitVec.toNat_inj, toNat_and_0F]
    rfl
  simp only [dec8Result, beq_eq_decide, hz, hh]
  rw [sub_eq_ofInt v 1]
  rfl

/-- A register or (HL) takes no operand byte (R66). -/
theorem operandBytes_of_readModifyWrite {t : Loc8} (h : t.isReadModifyWrite = true) : t.operandBytes = 0 := by
  cases t with
  | reg | indHL => rfl
  | indBC | indDE | indHLInc | indHLDec | imm8 | abs16 | highImm | highC => exact absurd h Bool.false_ne_true

/-- Settles O41: the operand is written back with the result. -/
theorem incDecByte : Obligations.IncDecByte := by
  intro i t s hs
  refine ⟨fun hi => ?_, fun hi => ?_⟩
  · have ht : t.isReadModifyWrite = true := admitted_of_op hi nofun
    have h := answers_of_arm hi hs ht (yields_armInc8 ht s)
    simp only [inc8Result_eq, State.seqPc, Op.len, operandBytes_of_readModifyWrite ht] at h
    exact h
  · have ht : t.isReadModifyWrite = true := admitted_of_op hi nofun
    have h := answers_of_arm hi hs ht (yields_armDec8 ht s)
    simp only [dec8Result_eq, State.seqPc, Op.len, operandBytes_of_readModifyWrite ht] at h
    exact h

/-! ## DAA, CPL, SCF and CCF -/

/-- The accumulator that DAA gives, in numbers (R127, D14). -/
def daaNat (a : Nat) (n h c : Bool) : Nat :=
  if n = false then (a + (if c = true ∨ a > 0x99 then 0x60 else 0) + (if h = true ∨ a % 16 > 9 then 6 else 0)) % 256
  else (a + 512 - (if c = true then 0x60 else 0) - (if h = true then 6 else 0)) % 256

/-- After an addition (N clear) the digits are corrected upwards. -/
theorem daaAdjust_of_add (a : Byte) (h c : Bool) :
    daaAdjust a false h c = (BitVec.ofNat 8 (daaNat a.toNat false h c), c || decide (a.toNat > 0x99)) := by
  have hnib : (a + 0x60).toNat % 16 = a.toNat % 16 := by bv_omega
  simp only [daaAdjust, daaNat, if_true, Bool.or_eq_true, decide_eq_true_eq]
  by_cases hc : c = true ∨ a.toNat > 0x99 <;> by_cases hh : h = true ∨ a.toNat % 16 > 9
  all_goals
    have hout : (c || decide (a.toNat > 0x99)) = decide (c = true ∨ a.toNat > 0x99) := by simp
    simp only [hout, hc, hh, hnib, if_true, if_false, decide_true, decide_false, Prod.mk.injEq]
  · exact ⟨by bv_omega, trivial⟩
  · exact ⟨by bv_omega, trivial⟩
  · exact ⟨by bv_omega, Bool.eq_false_iff.mpr fun h => hc (.inl h)⟩
  · exact ⟨by bv_omega, Bool.eq_false_iff.mpr fun h => hc (.inl h)⟩

/-- After a subtraction (N set) they are corrected downwards, and C is kept. -/
theorem daaAdjust_of_sub (a : Byte) (h c : Bool) :
    daaAdjust a true h c = (BitVec.ofNat 8 (daaNat a.toNat true h c), c) := by
  cases c <;> cases h <;>
    simp only [daaAdjust, daaNat, Bool.true_eq_false, Bool.false_eq_true, if_true, if_false, Prod.mk.injEq, and_true]
  all_goals bv_omega

theorem daaNat_lt (a : Nat) (n h c : Bool) : daaNat a n h c < 256 := by
  unfold daaNat
  split <;> exact Nat.mod_lt _ (by decide)

/-- DAA's result and flags, in numbers (R127). -/
theorem daaResult_eq (a : Byte) (n h c : Bool) : daaResult a n h c =
    ⟨BitVec.ofNat 8 (daaNat a.toNat n h c),
      ⟨some (decide (daaNat a.toNat n h c = 0)), none, some false, some (c || (!n && decide (a.toNat > 0x99)))⟩⟩ := by
  have hout : daaAdjust a n h c = (BitVec.ofNat 8 (daaNat a.toNat n h c), c || (!n && decide (a.toNat > 0x99))) := by
    cases n
    · rw [daaAdjust_of_add, Bool.not_false, Bool.true_and]
    · rw [daaAdjust_of_sub, Bool.not_true, Bool.false_and, Bool.or_false]
  rw [daaResult, hout]
  simp only [beq_zero_eq_decide, BitVec.toNat_ofNat, Nat.mod_eq_of_lt (daaNat_lt _ _ _ _)]

/-- Settles O42: the correction in numbers. -/
theorem decimalAdjust : Obligations.DecimalAdjust := by
  rintro s _ r _ hs rfl hr rfl
  have hr : r = daaNat s.a.toNat s.f.n s.f.h s.f.c := hr
  have h := answers_of_arm (o := .daa) (i := .daa) rfl hs rfl (yields_armDaa s)
  rw [daaResult_eq] at h
  rw [hr]
  exact h

/-- The two decimal digits of a packed byte, as a number (R127). -/
def digits (x : Nat) : Nat := x / 16 * 10 + x % 16

theorem digits_packed {p q : Nat} (hq : q ≤ 9) : digits (16 * p + q) = 10 * p + q ∧ (16 * p + q) % 16 = q := by
  unfold digits
  omega

/-- The corrections of DAA after a sum of packed bytes, whose high digits add up to `p` and whose low digits to `q`: the
result is packed again, its digits those of the sum without its hundreds (R127, D14). -/
theorem daaNat_packed_sum {p q : Nat} (hp : p ≤ 18) (hq : q ≤ 18) {h : Bool} (hh : h = true ↔ q > 0x0F) {r : Nat}
    (hr : r = daaNat ((16 * p + q) % 256) false h (decide (16 * p + q > 0xFF))) :
    digits r = (10 * p + q) % 100 ∧ r % 16 ≤ 9 := by
  have hlow : h = true ∨ (16 * p + q) % 256 % 16 > 9 ↔ q > 9 := by
    rw [hh]
    omega
  have hhigh : 16 * p + q > 0xFF ∨ (16 * p + q) % 256 > 0x99 ↔ 10 * p + q ≥ 100 := by omega
  simp only [daaNat, if_true, decide_eq_true_eq, hlow, hhigh] at hr
  obtain ⟨x, y, hy, hrxy, hsum⟩ : ∃ x y, y ≤ 9 ∧ r = 16 * x + y ∧ 10 * x + y = (10 * p + q) % 100 := by
    by_cases h1 : 10 * p + q ≥ 100 <;> by_cases h2 : q > 9 <;> simp only [h1, h2, if_true, if_false] at hr
    · exact ⟨p - 9, q - 10, by omega⟩
    · exact ⟨p - 10, q, by omega⟩
    · exact ⟨p + 1, q - 10, by omega⟩
    · exact ⟨p, q, by omega⟩
  obtain ⟨hdig, hlow⟩ := digits_packed (p := x) hy
  rw [hrxy, hdig, hlow]
  exact ⟨hsum, hy⟩

/-- DAA after the sum of two packed bytes: the digits of the decimal sum, and its carry (R117, R127, D14). -/
theorem digits_daaNat_of_sum {x y : Nat} (hx : x / 16 ≤ 9) (hx' : x % 16 ≤ 9) (hy : y / 16 ≤ 9) (hy' : y % 16 ≤ 9)
    {r : Nat} (hr : r = daaNat ((x + y) % 256) false (decide (x % 16 + y % 16 > 0x0F)) (decide (x + y > 0xFF))) :
    digits r = (digits x + digits y) % 100 ∧ r % 16 ≤ 9 ∧
      (x + y > 0xFF ∨ (x + y) % 256 > 0x99 ↔ digits x + digits y ≥ 100) := by
  have hsum : x + y = 16 * (x / 16 + y / 16) + (x % 16 + y % 16) := by omega
  have hdig : digits x + digits y = 10 * (x / 16 + y / 16) + (x % 16 + y % 16) := by
    unfold digits
    omega
  rw [hsum] at hr ⊢
  rw [hdig]
  obtain ⟨h1, h2⟩ := daaNat_packed_sum (Nat.add_le_add hx hy) (Nat.add_le_add hx' hy') decide_eq_true_iff hr
  exact ⟨h1, h2, by omega⟩

theorem State.regCheck_of_holds {s : State} {r : Reg8} (h : s.holds (.reg r) = true) : s.regCheck r = none := by
  rw [State.regCheck, if_pos h]

theorem State.flagCheck_of_holds {s : State} {g : FlagName} (h : s.holds (.flag g) = true) : s.flagCheck g = none := by
  rw [State.flagCheck, if_pos h]

/-- ADD A,B where every register and flag holds a value (R117). -/
theorem exec_add_A_B_of_holds {s : State} (hs : s.running = true) (hn : ∀ n, s.holds n = true) :
    ∃ t, exec .add_A_B s = .next t ∧ t.running = true ∧ t.a.toNat = (s.a.toNat + s.b.toNat) % 256 ∧ t.f.n = false ∧
      t.f.h = decide (s.a.toNat % 16 + s.b.toNat % 16 > 0x0F) ∧ t.f.c = decide (s.a.toNat + s.b.toNat > 0xFF) := by
  have hpass : firstFault (s.readChecks (.reg .b) ++ [s.regCheck .a]) = none := by
    simp [State.readChecks, State.regCheck_of_holds, hn]
  exact ⟨_, ((addAndAdc .add_A_B (.reg .b) s hs).1 rfl).1 hpass, hs, BitVec.toNat_ofNat _ _, rfl, rfl, rfl⟩

/-- DAA where every register and flag holds a value (R127). -/
theorem exec_daa_of_holds {s : State} (hs : s.running = true) (hn : ∀ n, s.holds n = true) :
    ∃ t, exec .daa s = .next t ∧ t.a.toNat = daaNat s.a.toNat s.f.n s.f.h s.f.c ∧
      t.f.c = (s.f.c || (!s.f.n && decide (s.a.toNat > 0x99))) := by
  have hpass : firstFault [s.regCheck .a, s.flagCheck .c, s.flagCheck .n, s.flagCheck .h] = none := by
    simp [State.regCheck_of_holds, State.flagCheck_of_holds, hn]
  refine ⟨_, (decimalAdjust s _ _ _ hs rfl rfl rfl).1 hpass, ?_, rfl⟩
  exact (BitVec.toNat_ofNat _ _).trans (Nat.mod_eq_of_lt (daaNat_lt _ _ _ _))

/-- Settles O43: the digits of the corrected sum. -/
theorem decimalAddition : Obligations.DecimalAddition := by
  intro s hs hdef hah hal hbh hbl
  have hn := s.allDefined_iff.mp hdef
  obtain ⟨t, hadd, ht, hta, htn, hth, htc⟩ := exec_add_A_B_of_holds hs hn
  obtain ⟨u, hdaa, hua, huc⟩ := exec_daa_of_holds ht fun n => exec_holds hadd (hn n)
  rw [hta, htn, hth, htc] at hua
  obtain ⟨hdig, hlow, hcarry⟩ := digits_daaNat_of_sum hah hal hbh hbl hua
  refine ⟨t, u, hadd, hdaa, hdig, hlow, ?_⟩
  rw [huc, hta, htn, htc, Bool.not_false, Bool.true_and, Bool.eq_iff_iff, Bool.or_eq_true, decide_eq_true_eq,
    decide_eq_true_eq, decide_eq_true_eq]
  exact hcarry

theorem xor_FF (a : Byte) : a ^^^ 0xFF = BitVec.ofNat 8 (255 - a.toNat) := by
  apply BitVec.eq_of_toNat_eq
  have := a.isLt
  rw [show (0xFF : Byte) = BitVec.allOnes 8 from rfl, BitVec.xor_allOnes, BitVec.toNat_not, BitVec.toNat_ofNat]
  omega

/-- Settles O44: the complement of A in numbers, and the flags of each. -/
theorem flagOperations : Obligations.FlagOperations := by
  intro s hs
  refine ⟨?_, exec_of_arm_ok rfl hs rfl rfl, answers_of_arm (o := .ccf) rfl hs rfl (yields_armCcf s)⟩
  rw [← xor_FF]
  exact answers_of_arm (o := .cpl) rfl hs rfl (yields_armCpl s)

/-! ## 16-bit -/

/-- Settles O46: the pair plus or minus one, in numbers. -/
theorem incDecPair : Obligations.IncDecPair := by
  intro i k s hs
  refine ⟨fun hi => ?_, fun hi => ?_⟩
  · rw [← add_one_eq_ofNat]
    exact answers_of_arm hi hs rfl (yields_armInc16 k s)
  · rw [← sub_one_eq_ofInt]
    exact answers_of_arm hi hs rfl (yields_armDec16 k s)

/-- Settles O47: the sum in numbers, with the carries of its two halves. -/
theorem addPair : Obligations.AddPair := by
  intro i k s hs hi
  rw [← add_eq_ofNat]
  exact answers_of_arm hi hs rfl (yields_armAdd16 k s)

end Sys2Proof.Machine
end

section
/-! Rotates, shifts and bits (41_alu8.md R131 to R134; 45_prefixed.md R155 to R165), in numbers. -/

namespace Sys2Proof.Machine

/-! ## A value shifted in beside another -/

/-- A byte shifted up by `k`, with a value of `k` bits below it. -/
theorem toNat_shiftLeft_or (v x : Byte) {k : Nat} (hk : k ≤ 8) (hx : x.toNat < 2 ^ k) :
    (v <<< k ||| x).toNat = v.toNat * 2 ^ k % 256 + x.toNat := by
  have h256 : 2 ^ 8 = 2 ^ (8 - k) * 2 ^ k := by rw [← pow_add, Nat.sub_add_cancel hk]
  rw [BitVec.toNat_or, BitVec.toNat_shiftLeft, show 256 = 2 ^ 8 from rfl, h256, Nat.shiftLeft_eq,
    Nat.mul_mod_mul_right, ← Nat.shiftLeft_eq, ← Nat.shiftLeft_add_eq_or_of_lt hx]

theorem toNat_shiftRight (v : Byte) (k : Nat) : (v >>> k).toNat = v.toNat / 2 ^ k := by
  rw [BitVec.toNat_ushiftRight, Nat.shiftRight_eq_div_pow]

/-- A byte shifted down by one, with a bit above it. -/
theorem toNat_shiftRight_or (v : Byte) (c : Bool) : (v >>> 1 ||| b2b c <<< 7).toNat = v.toNat / 2 + b2n c * 0x80 := by
  have hlt : (v >>> 1).toNat < 2 ^ 7 := by
    rw [toNat_shiftRight]
    omega
  have := b2n_le_one c
  rw [BitVec.or_comm, toNat_shiftLeft_or _ _ (by decide) hlt, toNat_shiftRight, b2b_toNat]
  omega

/-- The top bit of a byte, in numbers. -/
theorem getLsbD_seven (v : Byte) : v.getLsbD 7 = decide (v.toNat / 128 = 1) := by
  have := v.isLt
  rw [BitVec.getLsbD, Nat.testBit_eq_decide_div_mod_eq, decide_eq_decide]
  omega

/-- The low bit of a byte, in numbers. -/
theorem getLsbD_zero (v : Byte) : v.getLsbD 0 = decide (v.toNat % 2 = 1) := by
  rw [BitVec.getLsbD, Nat.testBit_eq_decide_div_mod_eq, pow_zero, Nat.div_one]

/-! ## The rotates and shifts -/

theorem toNat_rotLeft (v : Byte) : (rotLeft v).1.toNat = v.toNat * 2 % 256 + v.toNat / 128 := by
  have := v.isLt
  have hb : (b2b (v.getLsbD 7)).toNat = v.toNat / 128 := by
    rw [b2b_toNat, b2n_getLsbD]
    omega
  rw [rotLeft, toNat_shiftLeft_or _ _ (by decide) (by omega), hb, pow_one]

theorem toNat_rotRight (v : Byte) : (rotRight v).1.toNat = v.toNat / 2 + v.toNat % 2 * 0x80 := by
  rw [rotRight, toNat_shiftRight_or, b2n_getLsbD, pow_zero, Nat.div_one]

theorem toNat_rotLeftCarry (v : Byte) (c : Bool) : (rotLeftCarry v c).1.toNat = v.toNat * 2 % 256 + b2n c := by
  have := b2n_le_one c
  rw [rotLeftCarry, toNat_shiftLeft_or _ _ (by decide) (by rw [b2b_toNat]; omega), b2b_toNat, pow_one]

theorem toNat_rotRightCarry (v : Byte) (c : Bool) : (rotRightCarry v c).1.toNat = v.toNat / 2 + b2n c * 0x80 :=
  toNat_shiftRight_or v c

theorem toNat_shiftLeft_fst (v : Byte) : (shiftLeft v).1.toNat = v.toNat * 2 % 256 := by
  rw [shiftLeft, BitVec.toNat_shiftLeft, Nat.shiftLeft_eq]

/-- The top bit kept is the top bit shifted in (R160). -/
theorem and_80 (v : Byte) : v &&& (0x80 : Byte) = b2b (v.getLsbD 7) <<< 7 := by
  have htop : v >>> 7 = b2b (v.getLsbD 7) := by
    apply BitVec.eq_of_toNat_eq
    have := v.isLt
    rw [toNat_shiftRight, b2b_toNat, b2n_getLsbD]
    omega
  rw [← htop, BitVec.shiftLeft_ushiftRight]
  rfl

theorem toNat_shiftRightArith (v : Byte) : (shiftRightArith v).1.toNat = v.toNat / 2 + v.toNat / 128 * 0x80 := by
  have := v.isLt
  rw [shiftRightArith, and_80, toNat_shiftRight_or, b2n_getLsbD]
  omega

theorem toNat_swapNibbles (v : Byte) : (swapNibbles v).1.toNat = v.toNat % 16 * 16 + v.toNat / 16 := by
  have := v.isLt
  have hlt : (v >>> 4).toNat < 2 ^ 4 := by
    rw [toNat_shiftRight]
    omega
  rw [swapNibbles, toNat_shiftLeft_or _ _ (by decide) hlt, toNat_shiftRight]
  omega

theorem toNat_shiftRight_fst (v : Byte) : (shiftRight v).1.toNat = v.toNat / 2 := toNat_shiftRight v 1

/-! ## RLCA, RRCA, RLA and RRA -/

theorem ofNat_toNat_byte (v : Byte) : BitVec.ofNat 8 v.toNat = v := by
  rw [BitVec.ofNat_toNat, BitVec.setWidth_eq]

/-- Settles O45: the rotated value and the bit that left, in numbers. -/
theorem accumulatorRotates : Obligations.AccumulatorRotates := by
  rintro s _ hs rfl
  rw [← toNat_rotLeft, ← toNat_rotRight, ← toNat_rotLeftCarry, ← toNat_rotRightCarry, ofNat_toNat_byte,
    ofNat_toNat_byte, ofNat_toNat_byte, ofNat_toNat_byte, ← getLsbD_seven, ← getLsbD_zero]
  exact ⟨answers_of_arm (o := .rlca) rfl hs rfl (yields_armRlca s),
    answers_of_arm (o := .rrca) rfl hs rfl (yields_armRrca s), answers_of_arm (o := .rla) rfl hs rfl (yields_armRla s),
    answers_of_arm (o := .rra) rfl hs rfl (yields_armRra s)⟩

/-! ## The prefixed rotates -/

theorem cbRotate_flags (out : Byte × Bool) :
    (cbRotate out).flags = ⟨some (decide (out.1.toNat = 0)), some false, some false, some out.2⟩ := by
  simp only [cbRotate, beq_zero_eq_decide]

/-- A rotate, shift or SWAP answers the operand with the value written back, which is `r` in
numbers, and the bit `c` that left. -/
theorem answers_cbRotate {i : Instr} {op : CbOp} {t : Loc8} {s : State} {f : Byte → Byte × Bool}
    (hi : i.op = some (.cb op t)) (hs : s.running = true) (ht : t.isReadModifyWrite = true)
    (hf : armCb op t s = armCbRotate (.cb op t) t f s) {r : Nat} {c : Bool} (hr : (f (s.operand t)).1.toNat = r)
    (hc : (f (s.operand t)).2 = c) :
    Answers (exec i s) (s.readChecks t) (((s.putOperand t (BitVec.ofNat 8 r)).setFlags
      ⟨some (decide (r = 0)), some false, some false, some c⟩).commit (s.pc + 2) 0) := by
  have h := answers_of_arm hi hs ht ((yields_armCbRotate (.cb op t) ht f s).of_eq hf)
  rw [cbRotate_flags] at h
  rw [← hr, ← hc, ofNat_toNat_byte]
  exact h

/-- The same through the carry. -/
theorem answers_cbRotateCarry {i : Instr} {op : CbOp} {t : Loc8} {s : State} {f : Byte → Bool → Byte × Bool}
    (hi : i.op = some (.cb op t)) (hs : s.running = true) (ht : t.isReadModifyWrite = true)
    (hf : armCb op t s = armCbRotateCarry (.cb op t) t f s) {r : Nat} {c : Bool}
    (hr : (f (s.operand t) s.f.c).1.toNat = r) (hc : (f (s.operand t) s.f.c).2 = c) :
    Answers (exec i s) (s.readChecks t ++ [s.flagCheck .c]) (((s.putOperand t (BitVec.ofNat 8 r)).setFlags
      ⟨some (decide (r = 0)), some false, some false, some c⟩).commit (s.pc + 2) 0) := by
  have h := answers_of_arm hi hs ht ((yields_armCbRotateCarry (.cb op t) ht f s).of_eq hf)
  rw [cbRotate_flags] at h
  rw [← hr, ← hc, ofNat_toNat_byte]
  exact h

/-- Settles O54: each operation's value and the bit that left, in numbers. -/
theorem prefixedRotates : Obligations.PrefixedRotates := fun _ _ hs ht =>
  ⟨answers_cbRotate rfl hs ht rfl (toNat_rotLeft _) (getLsbD_seven _),
    answers_cbRotate rfl hs ht rfl (toNat_rotRight _) (getLsbD_zero _),
    answers_cbRotateCarry rfl hs ht rfl (toNat_rotLeftCarry _ _) (getLsbD_seven _),
    answers_cbRotateCarry rfl hs ht rfl (toNat_rotRightCarry _ _) (getLsbD_zero _),
    answers_cbRotate rfl hs ht rfl (toNat_shiftLeft_fst _) (getLsbD_seven _),
    answers_cbRotate rfl hs ht rfl (toNat_shiftRightArith _) (getLsbD_zero _),
    answers_cbRotate rfl hs ht rfl (toNat_swapNibbles _) rfl,
    answers_cbRotate rfl hs ht rfl (toNat_shiftRight_fst _) (getLsbD_zero _)⟩

/-! ## BIT, RES and SET -/

/-- The mask of RES has every bit but one (R164). -/
theorem getLsbD_resMask (b k : Fin 8) :
    (BitVec.ofNat 8 (0xFF - 2 ^ b.val)).getLsbD k.val = decide (k.val ≠ b.val) := by
  revert b k
  decide

/-- The mask of SET has one bit (R165). -/
theorem getLsbD_setMask (b k : Fin 8) : (BitVec.ofNat 8 (2 ^ b.val)).getLsbD k.val = decide (k.val = b.val) := by
  revert b k
  decide

theorem bitFlags_eq (b : Fin 8) (v : Byte) :
    bitFlags b v = ⟨some (decide (v.toNat / 2 ^ b.val % 2 = 0)), some false, some true, none⟩ := by
  have hz : (!v.getLsbD b.val) = decide (v.toNat / 2 ^ b.val % 2 = 0) := by
    rw [BitVec.getLsbD, Nat.testBit_eq_decide_div_mod_eq, ← decide_not, decide_eq_decide]
    omega
  rw [bitFlags, hz]

/-- Settles O55: the bit tested, and the masks of RES and SET bit by bit. -/
theorem prefixedBits : Obligations.PrefixedBits := by
  intro t b s hs ht
  refine ⟨?_,
    ⟨resBit b (s.operand t), answers_of_arm (o := .cb (.res b) t) rfl hs ht (yields_armCbModify _ ht _ s), ?_⟩,
    ⟨setBit b (s.operand t), answers_of_arm (o := .cb (.set b) t) rfl hs ht (yields_armCbModify _ ht _ s), ?_⟩⟩
  · rw [← bitFlags_eq]
    exact answers_of_arm (o := .cb (.bit b) t) rfl hs ht (yields_armCbBit b ht s)
  · intro k hk
    rw [resBit, BitVec.getLsbD_and, getLsbD_resMask b ⟨k, hk⟩]
  · intro k hk
    rw [setBit, BitVec.getLsbD_or, getLsbD_setMask b ⟨k, hk⟩]

end Sys2Proof.Machine
end

section
/-! Control transfer (43_control.md): each instruction is its arm's answer; and a return undoes a
call (95_test_vectors.md S6). -/

namespace Sys2Proof.Machine

/-! ## Conditions -/

/-- Only RETI has the condition ALWAYS_IE (R72, D30). -/
theorem jp_cond_ne_alwaysIe {i : Instr} {cc : Cond} {f : JpForm} (hi : i.op = some (.jp cc f)) : cc ≠ .alwaysIe := by
  cases i <;> cases hi <;> decide

theorem call_cond_ne_alwaysIe {i : Instr} {cc : Cond} (hi : i.op = some (.call cc)) : cc ≠ .alwaysIe := by
  cases i <;> cases hi <;> decide

theorem eq_reti_iff {i : Instr} {cc : Cond} (hi : i.op = some (.ret cc)) : i = .reti ↔ cc = .alwaysIe := by
  cases i <;> cases hi <;> decide

/-- A condition other than ALWAYS_IE leaves the state as it is (R139). -/
theorem State.afterCond_of_ne {cc : Cond} (h : cc ≠ .alwaysIe) (s : State) : s.afterCond cc = s := by
  cases cc with
  | alwaysIe => exact absurd rfl h
  | _ => rfl

/-! ## Jumps -/

/-- The target of JR: the signed byte counted from pc+2 (R143, D9). -/
theorem add_two_add_sext16 (pc : Word) (u : Byte) :
    pc + 2 + sext16 u = BitVec.ofInt 16 ((pc.toNat : Int) + 2 + u.toInt) := by
  rw [BitVec.ofInt_add, BitVec.ofInt_add, BitVec.ofInt_natCast, BitVec.ofNat_toNat, BitVec.setWidth_eq]
  rfl

/-- Settles O48: the immediate, the condition, and the target in numbers. -/
theorem jumps : Obligations.Jumps := by
  intro i cc s hs
  refine ⟨fun hi => ?_, fun hi => ?_, answers_of_arm (o := .jp .always .hl) rfl hs rfl (yields_armJpHl s)⟩
  · have h := answers_of_arm hi hs rfl (yields_armJpImm cc s)
    rw [State.afterCond_of_ne (jp_cond_ne_alwaysIe hi), State.wordAt_imm16] at h
    refine h.of_state_eq ?_
    cases s.cond cc <;> rfl
  · have h := answers_of_arm hi hs rfl (yields_armJr cc s)
    rw [State.afterCond_of_ne (jp_cond_ne_alwaysIe hi)] at h
    refine h.of_state_eq ?_
    rw [← add_two_add_sext16]
    cases s.cond cc <;> rfl

/-! ## Calls and returns -/

/-- Settles O49: the immediate, the condition, and the push of pc+3 where it is taken. -/
theorem calls : Obligations.Calls := by
  intro i cc s hs hi
  have h := answers_of_arm hi hs rfl (yields_armCall cc s)
  rw [State.afterCond_of_ne (call_cond_ne_alwaysIe hi), State.wordAt_imm16, ← List.append_assoc] at h
  refine h.of_state_eq ?_
  cases s.cond cc <;> rfl

/-- Settles O50: the condition, which for RETI sets ime, and the pop where it is taken. -/
theorem returns : Obligations.Returns := by
  intro i cc s hs hi
  refine (answers_of_arm hi hs rfl (yields_armRet cc s)).of_state_eq ?_
  by_cases hcc : cc = .alwaysIe
  · rw [(eq_reti_iff hi).mpr hcc, hcc]
    simp [State.cond, State.afterCond, State.commit, State.wordAt, callPenalty]
  · have hne : decide (i = .reti) = false := decide_eq_false fun h => hcc ((eq_reti_iff hi).mp h)
    rw [State.afterCond_of_ne hcc, hne, Bool.or_false]
    cases s.cond cc <;> rfl

/-- Settles O51: each RST by its target. -/
theorem restarts : Obligations.Restarts := by
  intro s hs
  have hop : ∀ p ∈ [(Instr.rst_00h, (0x0000 : Word)), (.rst_08h, 0x0008), (.rst_10h, 0x0010), (.rst_18h, 0x0018),
      (.rst_20h, 0x0020), (.rst_28h, 0x0028), (.rst_30h, 0x0030), (.rst_38h, 0x0038)], p.1.op = some (.rst p.2) := by
    decide
  exact fun p hp => answers_of_arm (hop p hp) hs rfl (yields_armRst p.2 s)

/-- RET after a push of the return address goes there, with SP as it was before the push. -/
theorem exec_ret_of_pushed {s : State} (hs : s.running = true) (hw : s.mem.wf = true) {v : Word}
    (h1 : s.mapped (s.sp - 1) = true) (h2 : s.mapped (s.sp - 2) = true) (p : Word) (x : Byte) :
    exec .ret ((s.pushed v).commit p x) = .next { s with pc := v, mem := (s.pushed v).mem, lastExtra := 12 } := by
  have hpop : pop16 ((s.pushed v).commit p x) = .ok (v, { (s.pushed v).commit p x with sp := s.sp }) := by
    refine pop16_eq_ok.mpr ⟨h2, ?_, ?_⟩
    · rw [State.commit_sp, State.pushed_sp, sub_two_add_one]
      exact h1
    · rw [State.commit_sp, State.pushed_sp, State.wordAt_commit, State.wordAt_pushed hw, sub_two_add_two]
  have harm : arm (.ret .always) ((s.pushed v).commit p x) =
      .ok ⟨{ (s.pushed v).commit p x with sp := s.sp }, v, callPenalty⟩ := by
    simp only [arm, armRet, evalCond, ok_bind, if_true, hpop, pure_eq_ok]
  have hrun : ((s.pushed v).commit p x).running = true := hs
  exact exec_of_arm_ok rfl hrun rfl harm

/-- Settles O52: a taken CALL and any RST end in a push, which RET undoes. -/
theorem callThenReturn : Obligations.CallThenReturn := by
  intro i s t hs hw h
  refine ⟨fun cc hi hcond => ?_, fun v hi => ?_⟩
  · obtain ⟨r, hr, rfl⟩ := exec_eq_next_of_running hi hs h
    obtain ⟨nn, _, hr⟩ := bind_eq_ok.mp hr
    obtain ⟨p, hp, hr⟩ := bind_eq_ok.mp hr
    rw [(yields_evalCond cc s).eq_of_ok hp, hcond, State.afterCond_of_ne (call_cond_ne_alwaysIe hi)] at hr
    obtain ⟨u, hu, hr⟩ := bind_eq_ok.mp hr
    obtain ⟨h1, h2, rfl⟩ := push16_eq_ok.mp hu
    cases hr
    exact exec_ret_of_pushed hs hw h1 h2 _ _
  · obtain ⟨r, hr, rfl⟩ := exec_eq_next_of_running hi hs h
    obtain ⟨u, hu, hr⟩ := bind_eq_ok.mp hr
    obtain ⟨h1, h2, rfl⟩ := push16_eq_ok.mp hu
    cases hr
    exact exec_ret_of_pushed hs hw h1 h2 _ _

end Sys2Proof.Machine
end

section
/-! What an instruction leaves unchanged: registers (10_state.md section 4), flags (section 2) and
memory (20_memory.md section 3). -/

namespace Sys2Proof.Machine

/-! ## Registers and flags -/

/-- No update allowed to an instruction that does not write a register touches it. -/
theorem armClosed_reg {o : Op} {r : Reg8} (ho : o.writesReg r = false) (v : Byte) (b : Bool) :
    ArmClosed o fun t => t.reg r = v ∧ t.holds (.reg r) = b where
  setReg s q w hq hs := by
    have hne : r ≠ q := by
      rintro rfl
      rw [ho] at hq
      cases hq
    rw [State.reg_setReg_other _ _ _ _ hne, State.holds_setReg, decide_eq_false (fun h => hne (RegName.reg.inj h)),
      Bool.false_or]
    exact hs
  setFlags s w _ hs := by rwa [State.reg_setFlags, State.holds_setFlags_reg]
  setSp _ _ _ hs := by cases r <;> exact hs
  setByte s a w _ _ hs := by rwa [State.reg_setByte, State.holds_setByte]
  setIme _ _ _ hs := by cases r <;> exact hs
  setHalted _ _ hs := by cases r <;> exact hs
  setStopped _ _ hs := by cases r <;> exact hs

/-- No update allowed to an instruction that does not write SP touches it (R25). -/
theorem armClosed_sp {o : Op} (ho : o.writesSp = false) (v : Word) : ArmClosed o fun t => t.sp = v where
  setReg s q w _ hs := by rw [State.setReg_sp, hs]
  setFlags _ _ _ hs := hs
  setSp _ _ h _ := by rw [ho] at h; cases h
  setByte _ _ _ _ _ hs := hs
  setIme _ _ _ hs := hs
  setHalted _ _ hs := hs
  setStopped _ _ hs := hs

theorem armClosed_lastCycles (o : Op) (n : Nat) : ArmClosed o fun t => t.lastCycles = n where
  setReg s q w _ hs := by rw [State.setReg_lastCycles, hs]
  setFlags _ _ _ hs := hs
  setSp _ _ _ hs := hs
  setByte _ _ _ _ _ hs := hs
  setIme _ _ _ hs := hs
  setHalted _ _ hs := hs
  setStopped _ _ hs := hs

/-- Settles O57: each part of the register file is kept by every update but those that its table names. -/
theorem frameRegisters : Obligations.FrameRegisters := by
  intro i o s t ho h
  rw [exec_eq_execute ho] at h
  refine ⟨fun r hr => ?_, fun hsp => ?_, ?_, ?_⟩
  · exact execute_keeps (armClosed_reg hr _ _) (fun _ _ _ hs => by rwa [State.reg_commit, State.holds_commit]) h
      ⟨rfl, rfl⟩
  · exact execute_keeps (armClosed_sp hsp _) (fun _ _ _ hs => hs) h rfl
  · exact execute_keeps (armClosed_cfg o _) (fun _ _ _ hs => hs) h rfl
  · exact execute_keeps (armClosed_lastCycles o _) (fun _ _ _ hs => hs) h rfl

/-- A flag that a write leaves out keeps its value, and keeps holding one or none (R17, D36). -/
theorem State.flag_setFlags_of_none {w : FlagWrite} {g : FlagName} (hw : w.get g = none) (s : State) :
    (s.setFlags w).flag g = s.flag g ∧ (s.setFlags w).holds (.flag g) = s.holds (.flag g) := by
  cases g <;> simp only [FlagWrite.get] at hw <;> simp [State.flag, State.setFlags, State.holds, NoValue.get, hw]

/-- No update allowed to an instruction that does not touch a flag writes it. -/
theorem armClosed_flag {o : Op} {g : FlagName} (ho : o.touches g = false) (v b : Bool) :
    ArmClosed o fun t => t.flag g = v ∧ t.holds (.flag g) = b where
  setReg s q w _ hs := by
    rw [State.flag_setReg, State.holds_setReg, decide_eq_false nofun, Bool.false_or]
    exact hs
  setFlags s w hw hs := by
    obtain ⟨hv, hb⟩ := State.flag_setFlags_of_none (hw g ho) s
    rwa [hv, hb]
  setSp _ _ _ hs := by cases g <;> exact hs
  setByte s a w _ _ hs := by rwa [State.flag_setByte, State.holds_setByte]
  setIme _ _ _ hs := by cases g <;> exact hs
  setHalted _ _ hs := by cases g <;> exact hs
  setStopped _ _ hs := by cases g <;> exact hs

/-- Settles O58: a flag is kept by every update but a write that its row allows. -/
theorem frameFlags : Obligations.FrameFlags := by
  intro i o s t g ho h hg
  rw [exec_eq_execute ho] at h
  exact execute_keeps (armClosed_flag hg _ _) (fun _ _ _ hs => by rwa [State.flag_commit, State.holds_commit]) h
    ⟨rfl, rfl⟩

/-! ## Memory -/

/-- No update allowed to an instruction that stores nothing writes memory (R50). -/
theorem armClosed_byteAt {o : Op} (ho : o.stores = false) (x : Word) (v : Byte) :
    ArmClosed o fun t => t.byteAt x = v where
  setReg s q w _ hs := by rw [State.byteAt_setReg, hs]
  setFlags _ _ _ hs := hs
  setSp _ _ _ hs := hs
  setByte _ _ _ h _ _ := by rw [ho] at h; cases h
  setIme _ _ _ hs := hs
  setHalted _ _ hs := hs
  setStopped _ _ hs := hs

/-- A byte that the arm of an instruction leaves is left by the instruction. -/
theorem byteAt_of_execute {o : Op} {s t : State} {x : Word} (h : execute o s = .next t)
    (harm : ∀ r, o.admitted = true → arm o s = .ok r → r.state.byteAt x = s.byteAt x) : t.byteAt x = s.byteAt x := by
  rcases execute_eq_next h with ⟨_, rfl⟩ | ⟨_, ha, r, hr, rfl⟩
  · exact s.byteAt_commit _ _ _
  · rw [State.byteAt_commit, harm r ha hr]

theorem byteAt_locAfter (t : Loc8) (s : State) (x : Word) : (locAfter t s).byteAt x = s.byteAt x := by
  rcases locAfter_eq t s with h | ⟨w, h⟩
  · rw [h]
  · rw [h, State.byteAt_setPair]

/-- A write of an operand leaves every byte but the one at its place. -/
theorem byteAt_writeLoc_other {i : Op} {t : Loc8} {v : Byte} {s s' : State} {a x : Word}
    (h : writeLoc i t v s = .ok s') (hp : locPlace t s = .ok (.mem a)) (hx : x ≠ a) : s'.byteAt x = s.byteAt x := by
  rcases writeLoc_ok h with ⟨r, hr, _⟩ | ⟨a', ha, _, rfl⟩
  · rw [hp] at hr
    cases hr
  · rw [hp] at ha
    cases ha
    rw [byteAt_locAfter, State.byteAt_setByte_other _ _ _ _ hx]

/-- The source of a store moves nothing: it is a register or n (R73). -/
theorem locAfter_of_store {dst src : Loc8} (ha : admittedLd8 dst src = true) (hd : dst.isRegister = false) (s : State) :
    locAfter src s = s := by
  cases dst with
  | reg r => cases hd
  | imm8 => cases hd
  | indHL => rcases admittedLd8_indHL.mp ha with ⟨r, rfl⟩ | rfl <;> rfl
  | indBC | indDE | indHLInc | indHLDec | abs16 | highImm | highC =>
    rw [(admittedLd8_accumulatorOnly rfl).mp ha]
    rfl

theorem byteAt_armLd8 {dst src : Loc8} (ha : admittedLd8 dst src = true) {s : State} {r : Result}
    (h : armLd8 dst src s = .ok r) {a x : Word} (hp : locPlace dst s = .ok (.mem a)) (hx : x ≠ a) :
    r.state.byteAt x = s.byteAt x := by
  simp only [armLd8, bind_eq_ok, pure_eq_ok, Except.ok.injEq] at h
  obtain ⟨_, _, p, h1, s2, h2, rfl⟩ := h
  rw [readLoc_ok h1, locAfter_of_store ha ((locPlace_ok hp).2 a rfl)] at h2
  exact byteAt_writeLoc_other h2 hp hx

/-- Putting an operand back leaves every byte but the one at its place. -/
theorem byteAt_putOperand_other {t : Loc8} {s : State} {a x : Word} (hp : locPlace t s = .ok (.mem a)) (hx : x ≠ a)
    (v : Byte) : (s.putOperand t v).byteAt x = s.byteAt x := by
  cases t with
  | reg r => exact s.byteAt_setReg r v x
  | indHL =>
    cases (yields_locPlace (t := .indHL) rfl s).eq_of_ok hp
    exact s.byteAt_setByte_other _ v x hx
  | _ => rfl

theorem byteAt_armCb {op : CbOp} {d : Loc8} (hd : d.isReadModifyWrite = true) {s : State} {r : Result}
    (h : armCb op d s = .ok r) {a x : Word} (hp : locPlace d s = .ok (.mem a)) (hx : x ≠ a) :
    r.state.byteAt x = s.byteAt x := by
  cases op with
  | rl | rr =>
    rw [(yields_armCbRotateCarry _ hd _ s).eq_of_ok h]
    exact byteAt_putOperand_other hp hx _
  | bit b => rw [(yields_armCbBit b hd s).eq_of_ok h, State.byteAt_setFlags]
  | res | set =>
    rw [(yields_armCbModify _ hd _ s).eq_of_ok h]
    exact byteAt_putOperand_other hp hx _
  | rlc | rrc | sla | sra | swap | srl =>
    rw [(yields_armCbRotate _ hd _ s).eq_of_ok h]
    exact byteAt_putOperand_other hp hx _

/-- A push of a word leaves every byte but the two below SP (R112). -/
theorem byteAt_push16_other {w x : Word} {s t : State} (h : push16 w s = .ok t) (h1 : x ≠ s.sp - 1)
    (h2 : x ≠ s.sp - 2) : t.byteAt x = s.byteAt x := by
  obtain ⟨_, _, rfl⟩ := push16_eq_ok.mp h
  rw [State.pushed, State.byteAt_setByte_other _ _ _ _ h2, State.byteAt_setByte_other _ _ _ _ h1]
  rfl

theorem byteAt_armCall {cc : Cond} {s : State} {r : Result} (h : armCall cc s = .ok r) {x : Word}
    (h1 : x ≠ s.sp - 1) (h2 : x ≠ s.sp - 2) : r.state.byteAt x = s.byteAt x := by
  have hafter : (s.afterCond cc).byteAt x = s.byteAt x ∧ (s.afterCond cc).sp = s.sp := by cases cc <;> exact ⟨rfl, rfl⟩
  obtain ⟨nn, _, h⟩ := bind_eq_ok.mp h
  obtain ⟨p, hp, h⟩ := bind_eq_ok.mp h
  rw [(yields_evalCond cc s).eq_of_ok hp] at h
  cases hc : s.cond cc <;> rw [hc] at h
  · cases h
    exact hafter.1
  · obtain ⟨u, hu, h⟩ := bind_eq_ok.mp h
    cases h
    rw [byteAt_push16_other hu (by rwa [hafter.2]) (by rwa [hafter.2]), hafter.1]

/-- Settles O59: an instruction that stores nothing by its updates, and each storing arm by its place. -/
theorem frameMemory : Obligations.FrameMemory := by
  intro i o s t ho h
  rw [exec_eq_execute ho] at h
  refine ⟨fun hst x => ?_, ?_, ?_, ?_, ?_⟩
  · exact execute_keeps (armClosed_byteAt hst x _) (fun _ _ _ hs => hs) h rfl
  · rintro dst src a rfl hp x hx
    exact byteAt_of_execute h fun r ha hr => byteAt_armLd8 ha hr hp hx
  · rintro d k a (rfl | rfl | rfl) hp x hx
    · refine byteAt_of_execute h fun r ha hr => ?_
      rw [(yields_armInc8 ha s).eq_of_ok hr]
      exact byteAt_putOperand_other hp hx _
    · refine byteAt_of_execute h fun r ha hr => ?_
      rw [(yields_armDec8 ha s).eq_of_ok hr]
      exact byteAt_putOperand_other hp hx _
    · exact byteAt_of_execute h fun r ha hr => byteAt_armCb ha hr hp hx
  · rintro nn rfl hn x hx hx'
    refine byteAt_of_execute h fun r _ hr => ?_
    rw [(yields_armLd16NnSp s).eq_of_ok hr, ← (yields_fetchImm16 s).eq_of_ok hn,
      State.byteAt_setByte_other _ _ _ _ hx', State.byteAt_setByte_other _ _ _ _ hx]
  · rintro (⟨k, rfl⟩ | ⟨cc, rfl⟩ | ⟨v, rfl⟩) x h1 h2
    · refine byteAt_of_execute h fun r _ hr => ?_
      obtain ⟨w, _, hr⟩ := bind_eq_ok.mp hr
      obtain ⟨u, hu, hr⟩ := bind_eq_ok.mp hr
      cases hr
      exact byteAt_push16_other hu h1 h2
    · exact byteAt_of_execute h fun r _ hr => byteAt_armCall hr h1 h2
    · refine byteAt_of_execute h fun r _ hr => ?_
      obtain ⟨u, hu, hr⟩ := bind_eq_ok.mp hr
      cases hr
      exact byteAt_push16_other hu h1 h2

end Sys2Proof.Machine
end
